-- ==== Sys2Proof/Word.lean ====
section
/-! DEFINITION. The word types: bytes of the trunk and the buffers, words of the host bus. -/

namespace Sys2Proof

/-- A byte of a frame or a buffer (R56, R156). -/
abbrev Byte := BitVec 8

/-- A word of the host bus (R188). -/
abbrev Word := BitVec 16

end Sys2Proof
end

