-- ==== Sys2Proof/Syntax.lean ====
section
/-! DEFINITION. The commands and events of spec/opcode_table.json, one constructor per row.
A host command carries the channel it is issued on and the high byte of its command word (bits 15 to 8: option bits 8
and 9, the rest ignored, spec/09 9.1); its arguments are in the channel's words W1 to W6 (R199). The bytes of a
received frame run from its first space bit on (R64). The bits STRAY_FRAME hears wait in the state (log entry 22). -/

namespace Sys2Proof

/-- The two command channels (R188). -/
inductive Channel where
  | ch0 | ch1
deriving DecidableEq, Repr

/-- The rows of the table, in its order. -/
inductive Instr where
  | enrol (ch : Channel) (opts : Byte)
  | retire (ch : Channel) (opts : Byte)
  | suspend (ch : Channel) (opts : Byte)
  | resume (ch : Channel) (opts : Byte)
  | setClass (ch : Channel) (opts : Byte)
  | transfer (ch : Channel) (opts : Byte)
  | readStation (ch : Channel) (opts : Byte)
  | readIdentity (ch : Channel) (opts : Byte)
  | findAddress (ch : Channel) (opts : Byte)
  | findIdentity (ch : Channel) (opts : Byte)
  | nextStation (ch : Channel) (opts : Byte)
  | setPolling (ch : Channel) (opts : Byte)
  | configureLine (ch : Channel) (opts : Byte)
  | readLineStatus (ch : Channel) (opts : Byte)
  | startLine (ch : Channel) (opts : Byte)
  | stopLine (ch : Channel) (opts : Byte)
  | setHealth (ch : Channel) (opts : Byte)
  | clearHold (ch : Channel) (opts : Byte)
  | setAdmission (ch : Channel) (opts : Byte)
  | writeFilter (ch : Channel) (opts : Byte)
  | readFilter (ch : Channel) (opts : Byte)
  | readCandidate (ch : Channel) (opts : Byte)
  | approve (ch : Channel) (opts : Byte)
  | reject (ch : Channel) (opts : Byte)
  | allocate (ch : Channel) (opts : Byte)
  | release (ch : Channel) (opts : Byte)
  | send (ch : Channel) (opts : Byte)
  | takeMessage (ch : Channel) (opts : Byte)
  | setReserve (ch : Channel) (opts : Byte)
  | takeChange (ch : Channel) (opts : Byte)
  | resetRegistry (ch : Channel) (opts : Byte)
  | badCommand (ch : Channel) (opts code : Byte)
  | interruptCauseWrite (ch : Channel) (value : Word)
  | interruptEnableWrite (ch : Channel) (value : Word)
  | windowSelectWrite (ch : Channel) (value : Word)
  | windowDataRead (ch : Channel)
  | windowDataWrite (ch : Channel) (value : Word)
  | registerWrite (addr : BitVec 5) (value : Word)
  | pinReset (asserted : Bool)
  | frameSent
  | dismissSent
  | replyReceived (bytes : List Byte)
  | replyTimeout
  | joinFrame (bytes : List Byte)
  | joinWindowExpiry
  | clockLoss (bytes : List Byte)
  | guardExpiry
  | strayFrame
  | holdExpiry (slot : Fin 64)
  | idleExpiry
  | replyFirstSpaceBit
deriving DecidableEq, Repr

/-- The command codes of the table of commands (spec/09 9.8), by row; none for a row that is not a host command. -/
def Instr.commandCode : Instr → Option Byte
  | .enrol _ _ => some 0x10
  | .retire _ _ => some 0x11
  | .suspend _ _ => some 0x12
  | .resume _ _ => some 0x13
  | .setClass _ _ => some 0x14
  | .transfer _ _ => some 0x15
  | .readStation _ _ => some 0x16
  | .readIdentity _ _ => some 0x17
  | .findAddress _ _ => some 0x18
  | .findIdentity _ _ => some 0x19
  | .nextStation _ _ => some 0x1A
  | .setPolling _ _ => some 0x20
  | .configureLine _ _ => some 0x30
  | .readLineStatus _ _ => some 0x31
  | .startLine _ _ => some 0x32
  | .stopLine _ _ => some 0x33
  | .setHealth _ _ => some 0x34
  | .clearHold _ _ => some 0x40
  | .setAdmission _ _ => some 0x50
  | .writeFilter _ _ => some 0x51
  | .readFilter _ _ => some 0x52
  | .readCandidate _ _ => some 0x53
  | .approve _ _ => some 0x54
  | .reject _ _ => some 0x55
  | .allocate _ _ => some 0x60
  | .release _ _ => some 0x61
  | .send _ _ => some 0x62
  | .takeMessage _ _ => some 0x63
  | .setReserve _ _ => some 0x64
  | .takeChange _ _ => some 0x70
  | .resetRegistry _ _ => some 0x7F
  | .badCommand _ _ code => some code
  | .interruptCauseWrite _ _ | .interruptEnableWrite _ _ | .windowSelectWrite _ _ | .windowDataRead _
  | .windowDataWrite _ _ | .registerWrite _ _ | .pinReset _ | .frameSent | .dismissSent | .replyReceived _
  | .replyTimeout | .joinFrame _ | .joinWindowExpiry | .clockLoss _ | .guardExpiry | .strayFrame | .holdExpiry _
  | .idleExpiry | .replyFirstSpaceBit => none

/-- The codes the table of commands assigns (spec/09 9.8); code 0 and every other code name no command (R193). -/
def assignedCodes : List Byte :=
  [0x10, 0x11, 0x12, 0x13, 0x14, 0x15, 0x16, 0x17, 0x18, 0x19, 0x1A, 0x20, 0x30, 0x31, 0x32, 0x33, 0x34, 0x40,
   0x50, 0x51, 0x52, 0x53, 0x54, 0x55, 0x60, 0x61, 0x62, 0x63, 0x64, 0x70, 0x7F]

/-- Whether a code names a command. -/
def codeAssigned (code : Byte) : Bool := assignedCodes.contains code

end Sys2Proof
end

