-- ==== Sys2Proof/Config.lean ====
section
/-! DEFINITION. Durations the spec fixes. The model reads no free value. -/

namespace Sys2Proof.Config

/-- One period of the 7.3728 MHz reference clock, in the model's time unit. The unit is 1/25 of that period, in which
100 µs, the quantum and every bit time are whole (log entry 4, DESIGN CHOICE). -/
def refPeriod : Nat := 25

/-- 100 µs, the unit of the reply timeout and the join window (R63, R75): 18,432 units of 1/184.32 µs. -/
def unit100us : Nat := 18432

/-- The quantum, 10 ms (R46, R114). -/
def quantum : Nat := 1843200

/-- One nominal bit time at a divisor (R72): 16 × divisor reference periods. -/
def bitTime (divisor : Nat) : Nat := 16 * divisor * refPeriod

end Sys2Proof.Config
end

