-- ==== Sys2Proof/Machine/Memory.lean ====
section
/-! DEFINITION. The contents of the message buffers as one memory (R156): pairs of address and byte in one canonical
form. Position p of buffer b is address 128 × b + p. A byte that is not listed reads 0, the contents after a pin reset
(R174). -/

namespace Sys2Proof.Machine

/-- How many bytes the pool holds: 32 buffers of 128 (R156). -/
def poolBytes : Nat := 4096

/-- The byte at an address. -/
def Memory.read : List Host.Cell → Nat → Byte
  | [], _ => 0
  | (k, v) :: m, a => if a = k then v else Memory.read m a

/-- The memory with one byte replaced, in canonical form. -/
def Memory.write : List Host.Cell → Nat → Byte → List Host.Cell
  | [], a, v => if v = 0 then [] else [(a, v)]
  | (k, w) :: m, a, v =>
    if a < k then (if v = 0 then (k, w) :: m else (a, v) :: (k, w) :: m)
    else if a = k then (if v = 0 then m else (a, v) :: m)
    else (k, w) :: Memory.write m a v

/-- Bytes written from an address upward. -/
def Memory.writeBytes (m : List Host.Cell) (a : Nat) : List Byte → List Host.Cell
  | [] => m
  | b :: bs => Memory.writeBytes (Memory.write m a b) (a + 1) bs

/-- The n bytes from an address upward. -/
def Memory.readBytes (m : List Host.Cell) (a : Nat) : Nat → List Byte
  | 0 => []
  | n + 1 => Memory.read m a :: Memory.readBytes m (a + 1) n

/-- The canonical form: addresses strictly rising and inside the pool, and no listed byte 0. -/
def Memory.wf : List Host.Cell → Bool
  | [] => true
  | [(k, v)] => decide (k < poolBytes) && decide (v ≠ 0)
  | (k, v) :: (k', v') :: m => decide (k < k') && decide (v ≠ 0) && Memory.wf ((k', v') :: m)

end Sys2Proof.Machine
end

