-- ==== Sys2Proof/Machine/State.lean ====
section
/-! DEFINITION. The state of the 6420, block by block (spec/00 Block overview), and its pin reset value (R198). -/

namespace Sys2Proof.Machine

/-- A slot of the Station Table (R1). -/
abbrev SlotNo := Fin 64

/-- A message buffer (R156). -/
abbrev BufNo := Fin 32

/-- Nothing the spec describes stops the part, so no fault is ever raised (log entry 27). -/
inductive Fault where
deriving DecidableEq, Repr

/-- Reasons a command has no meaning. -/
inductive Refusal where
  /-- Raised by exec's arm of a command that has no meaning yet; no arm raises it. Safe: the model stops. -/
  | notModelled (mnemonic : String)
deriving DecidableEq, Repr

/-- How often a member is due (R2). -/
inductive Class where
  | fast | slow
deriving DecidableEq, Repr

/-- The states of a record that is not FREE (R1); a FREE slot holds no record. -/
inductive RecState where
  | admitting | active | silent | suspended | retiring | retired
deriving DecidableEq, Repr

/-- The causes of retirement (R18). -/
inductive RetireCause where
  | host | left | lost | rejoined | admitFailed
deriving DecidableEq, Repr

/-- The change reasons (R176). -/
inductive Reason where
  | admitted | silent | recovered | held | holdEnded | delivered | undelivered | owner | retired
deriving DecidableEq, Repr

/-- The name of a record: slot and generation (R3). -/
structure Handle where
  slot : SlotNo
  gen : Byte
deriving DecidableEq, Repr

/-- A record that is not FREE (R2). A field absent in the record's state is none. -/
structure Record where
  state : RecState
  address : Byte
  identity : List Byte
  cls : Class
  owner : Channel
  skip : Option Nat
  sendSeq : BitVec 3
  recvSeq : BitVec 3
  outq : List BufNo
  headAttempts : Option Nat
  missCount : Option Nat
  failedProbes : Option Nat
  /-- The time left of a present hold, in the time unit of Config (R114). -/
  hold : Option Nat
  admitAttempts : Option Nat
  retireCause : Option RetireCause
  dismissPending : Option Bool
  replies : Nat
  retransmissions : Nat
  /-- The set of change reasons, one bit each as R199 numbers them. -/
  reasons : BitVec 9
  delivered : Nat
  undelivered : Nat
deriving DecidableEq, Repr

/-- A slot: its generation and its record, none while FREE (R1). -/
structure Slot where
  gen : Byte
  record : Option Record
deriving DecidableEq, Repr

/-- The Station Registry's table and collections (R1, R7 to R10). -/
structure Registry where
  slots : Vector Slot 64
  /-- The Address Index, one entry per address byte (R7). -/
  addressIndex : Vector (Option SlotNo) 256
  freeSlots : List SlotNo
  admitQueue : List SlotNo
  dismissQueue : List SlotNo
deriving DecidableEq, Repr

/-- The Poll Ring (spec/02, table of its state). -/
structure PollRing where
  ring : List SlotNo
  cursor : Nat
  pollIssued : Bool
  /-- The time left of an idle in progress (R46). -/
  idle : Option Nat
  passCount : Word
  countdown : Nat
  invitePending : Bool
  slowDivisor : Nat
deriving DecidableEq, Repr

/-- The line states (R79). -/
inductive LineState where
  | off | idle | sending | awaiting | guard | fault
deriving DecidableEq, Repr

/-- The kinds of exchange (R80). -/
inductive ExchangeKind where
  | poll | data | invite | admitExchange | dismiss
deriving DecidableEq, Repr

/-- The Current Exchange (R80). Its phase is the line state. -/
structure Exchange where
  kind : ExchangeKind
  target : Option Handle
  sentNS : Option (BitVec 3)
  outbound : Option BufNo
  reserved : Option BufNo
deriving DecidableEq, Repr

/-- A STOP LINE DRAIN in progress: its channel, and the line state it was taken in, which its results return (R106). -/
structure Drain where
  channel : Channel
  takenIn : LineState
deriving DecidableEq, Repr

/-- The health settings (R111). -/
structure Health where
  silenceThreshold : Nat
  lostLimit : Nat
  retryLimit : Nat
  faultThreshold : Nat
deriving DecidableEq, Repr

/-- The clock source (R71). -/
inductive ClockSource where
  | internal | external
deriving DecidableEq, Repr

/-- The line configuration (R75). -/
structure LineConfig where
  divisor : Nat
  clock : ClockSource
  replyTimeout : Nat
  joinWindow : Nat
  guardTime : Nat
deriving DecidableEq, Repr

/-- The line error counters (R74). -/
structure Counters where
  check : Nat
  format : Nat
  stray : Nat
  unexpected : Nat
  timeout : Nat
  joinCollision : Nat
  refusedJoin : Nat
  candidateOverflow : Nat
deriving DecidableEq, Repr

/-- Where the receiver stands on the line outside a reply window (R67). -/
inductive Hunt where
  /-- It hunts for the start mark. The last sixteen bits, the latest in bit 15; a bit not seen yet is mark. -/
  | seeking (last : Word)
  /-- A stray frame: how many bits of its address, kind, sequence and length have been read, and the last eight. -/
  | header (taken : Nat) (last : Byte)
  /-- A stray frame: how many bits of its payload and check are still to be discarded. -/
  | discarding (left : Nat)
deriving DecidableEq, Repr

/-- The receiver has seen nothing but mark. -/
def Hunt.start : Hunt := .seeking 0xFFFF

/-- The Trunk Engine (spec/04, table of its state; spec/03 for the line). -/
structure Trunk where
  line : LineState
  current : Option Exchange
  /-- The frame the transmitter is sending, as its bytes (R56). -/
  frame : List Byte
  /-- A reply has begun in the open window and is being received (R63, R66). -/
  receiving : Bool
  /-- The hunt for stray frames in IDLE, GUARD and FAULT (R67, R79); at its start in every other line state. -/
  hunt : Hunt
  /-- What comes in on trunk data in outside a reply window: for each STRAY_FRAME to come the bits it hears, in the order
  they arrive, 1 for mark (R56, R67). The model's own, filled by the sender as the queue of commands is (log entry 22). -/
  lineIn : List (List Bool)
  /-- What comes in on trunk data in of the replies that an abort or a registry reset drops while a buffer is reserved: for
  each, the bytes that arrive before it is dropped, from its first space bit, in the order they arrive (R56, R70). The
  model's own, filled by the sender as the queue of commands is (log entry 9). -/
  replyIn : List (List Byte)
  /-- Time left of the transmission (R61); with the EXTERNAL source, of its lead-in, since the bits that follow keep to
  the line clock (R71). -/
  txTimer : Option Nat
  /-- Time left of the reply timer or the join window; none when it does not run (R63, R66). -/
  replyTimer : Option Nat
  /-- Time left of the turnaround guard (R73). -/
  guardTimer : Option Nat
  faultRun : Nat
  faultDue : Bool
  drain : Option Drain
  health : Health
  config : LineConfig
  counters : Counters
deriving DecidableEq, Repr

/-- A candidate's disposition, with the class and owner that a DEFERRED one holds (R141). -/
inductive Disposition where
  | undecided
  | deferred (cls : Class) (owner : Channel)
deriving DecidableEq, Repr

/-- An entry of the Candidate List (R141). -/
structure Candidate where
  ticket : Byte
  identity : List Byte
  disposition : Disposition
  lapse : Nat
deriving DecidableEq, Repr

/-- The actions of a filter (R138). -/
inductive FilterAction where
  | refuse | admitIt
deriving DecidableEq, Repr

/-- A filter (R138). -/
structure Filter where
  enabled : Bool
  action : FilterAction
  cls : Class
  owner : Channel
  minLength : Nat
  compare : Word
  pattern : Vector Byte 16
deriving DecidableEq, Repr

/-- The Admission Unit (R130). -/
structure Admission where
  candidates : List Candidate
  filters : Vector Filter 8
  interval : Nat
  width : Nat
  lapseLimit : Nat
  lower : Nat
  upper : Nat
  ticket : Byte
  nextPartition : Nat
deriving DecidableEq, Repr

/-- Where a buffer is, with what it holds there (R156). -/
inductive Place where
  | free
  | held (by_ : Channel)
  | queued (record : SlotNo)
  | reserved
  | delivered (source : Handle) (address : Byte)
deriving DecidableEq, Repr

/-- A message buffer but for its contents (R156). -/
structure Buffer where
  length : Nat
  place : Place
deriving DecidableEq, Repr

/-- The Buffer Manager (R156 to R158). The contents of all buffers are one memory (log entry 23). -/
structure Pool where
  buffers : Vector Buffer 32
  mem : List Host.Cell
  free : List BufNo
  reserveFloor : Nat
deriving DecidableEq, Repr

/-- The channel states (R191). -/
inductive ChanState where
  | idle | pending | executing | done
deriving DecidableEq, Repr

/-- The result codes (R194). -/
inductive ResultCode where
  | ok | badCommand | badArgument | notPermitted | staleHandle | wrongState | noSlot | noAddress | addressInUse
  | identityInUse | queueFull | noBuffer | notHeld | empty | notFound | lineActive | aborted
deriving DecidableEq, Repr

/-- One channel of the Host Port, with its Change List and its delivery queue (R160, R168, R178, R183, R189 to R191). -/
structure Port where
  state : ChanState
  overrun : Bool
  result : ResultCode
  /-- The code and options of the command word that started the channel's command (R190). -/
  code : Byte
  opts : Byte
  words : Vector Word 6
  /-- The DONE and WINDOW event causes (R183). -/
  done : Bool
  window : Bool
  enables : BitVec 6
  winBuf : BitVec 5
  winOff : BitVec 7
  /-- What the channel's last WINDOW_DATA_READ returned (log entry 15). -/
  readData : Word
  changeList : List SlotNo
  deliveryQueue : List BufNo
deriving DecidableEq, Repr

/-- The whole part, and the queue of commands waiting for it. -/
structure State where
  pending : List Instr
  /-- Reset in is asserted (R198). -/
  resetIn : Bool
  registry : Registry
  poll : PollRing
  trunk : Trunk
  adm : Admission
  pool : Pool
  port0 : Port
  port1 : Port
  /-- Channel 0's LINE event cause (R183). -/
  lineCause : Bool
  servedLast : Channel
deriving DecidableEq, Repr

/-- Slots 0 to 63 in order (R8). -/
def allSlots : List SlotNo := List.finRange 64

/-- Buffers 0 to 31 in order (R157). -/
def allBuffers : List BufNo := List.finRange 32

/-- A channel after a pin reset (R168, R186, R189, R198); the stored command word is log entry 14. -/
def Port.atReset : Port where
  state := .idle
  overrun := false
  result := .ok
  code := 0
  opts := 0
  words := Vector.replicate 6 0
  done := false
  window := false
  enables := 0
  winBuf := 0
  winOff := 0
  readData := 0
  changeList := []
  deliveryQueue := []

/-- A filter after a pin reset (R138). -/
def Filter.atReset : Filter where
  enabled := false
  action := .refuse
  cls := .fast
  owner := .ch0
  minLength := 0
  compare := 0
  pattern := Vector.replicate 16 0

/-- All eight line error counters 0 (R74). -/
def Counters.zero : Counters where
  check := 0
  format := 0
  stray := 0
  unexpected := 0
  timeout := 0
  joinCollision := 0
  refusedJoin := 0
  candidateOverflow := 0

/-- The part after a pin reset and the release of reset in (R198 and the rules it names). -/
def State.reset : State where
  pending := []
  resetIn := false
  registry :=
    { slots := Vector.replicate 64 { gen := 0, record := none }
      addressIndex := Vector.replicate 256 none
      freeSlots := allSlots
      admitQueue := []
      dismissQueue := [] }
  poll :=
    { ring := [], cursor := 0, pollIssued := false, idle := none, passCount := 0, countdown := 0
      invitePending := false, slowDivisor := 4 }
  trunk :=
    { line := .off, current := none, frame := [], receiving := false, hunt := Hunt.start, lineIn := [], replyIn := []
      txTimer := none, replyTimer := none, guardTimer := none, faultRun := 0, faultDue := false, drain := none
      health := { silenceThreshold := 3, lostLimit := 16, retryLimit := 4, faultThreshold := 32 }
      config := { divisor := 64, clock := .internal, replyTimeout := 20, joinWindow := 50, guardTime := 16 }
      counters := Counters.zero }
  adm :=
    { candidates := [], filters := Vector.replicate 8 Filter.atReset, interval := 0, width := 0, lapseLimit := 16
      lower := 1, upper := 254, ticket := 0, nextPartition := 0 }
  pool :=
    { buffers := Vector.replicate 32 { length := 0, place := .free }, mem := [], free := allBuffers
      reserveFloor := 2 }
  port0 := Port.atReset
  port1 := Port.atReset
  lineCause := false
  servedLast := .ch1

end Sys2Proof.Machine
end

