-- ==== Sys2Proof/Machine/Ops.lean ====
section
/-! DEFINITION. The named operations over the state that every meaning is made of: access to records, buffers and
channels, posting, the free buffer list, the Ring, retirement, and the exchange's hold on its target. -/

namespace Sys2Proof.Machine

/-- The channel other than the one given. -/
def otherChannel : Channel → Channel
  | .ch0 => .ch1
  | .ch1 => .ch0

/-! ### Access -/

/-- A channel's half of the Host Port. -/
def State.port (s : State) : Channel → Port
  | .ch0 => s.port0
  | .ch1 => s.port1

/-- The state with a channel's half replaced. -/
def State.setPort (s : State) (ch : Channel) (p : Port) : State :=
  match ch with
  | .ch0 => { s with port0 := p }
  | .ch1 => { s with port1 := p }

/-- A slot of the Station Table (R1). -/
def State.slot (s : State) (i : SlotNo) : Slot := s.registry.slots[i]

/-- A slot's record; none while FREE. -/
def State.record (s : State) (i : SlotNo) : Option Record := (s.slot i).record

/-- The handle that names a slot's present record (R3). -/
def State.handle (s : State) (i : SlotNo) : Handle := { slot := i, gen := (s.slot i).gen }

/-- The state with one slot replaced. -/
def State.setSlot (s : State) (i : SlotNo) (x : Slot) : State :=
  { s with registry := { s.registry with slots := s.registry.slots.set i x } }

/-- The state with one slot's record replaced, its generation kept. -/
def State.setRecord (s : State) (i : SlotNo) (r : Option Record) : State :=
  s.setSlot i { s.slot i with record := r }

/-- The state with one record changed; a FREE slot has none to change. -/
def State.updRecord (s : State) (i : SlotNo) (f : Record → Record) : State :=
  match s.record i with
  | none => s
  | some r => s.setRecord i (some (f r))

/-- The slot the Address Index maps an address to (R7). -/
def State.lookup (s : State) (a : Byte) : Option SlotNo := s.registry.addressIndex[a.toFin]

/-- The state with one Address Index entry replaced. -/
def State.setIndex (s : State) (a : Byte) (e : Option SlotNo) : State :=
  { s with registry := { s.registry with addressIndex := s.registry.addressIndex.set a.toFin e } }

/-- A message buffer, but for its contents. -/
def State.buffer (s : State) (b : BufNo) : Buffer := s.pool.buffers[b]

/-- The state with one buffer replaced. -/
def State.setBuffer (s : State) (b : BufNo) (x : Buffer) : State :=
  { s with pool := { s.pool with buffers := s.pool.buffers.set b x } }

/-- The state with one buffer in another place, its length and contents kept (R156). -/
def State.setPlace (s : State) (b : BufNo) (p : Place) : State :=
  s.setBuffer b { s.buffer b with place := p }

/-- The address of a buffer's position 0 in the memory. -/
def bufferBase (b : BufNo) : Nat := 128 * b.val

/-- The first n bytes of a buffer. -/
def State.bufferBytes (s : State) (b : BufNo) (n : Nat) : List Byte :=
  Memory.readBytes s.pool.mem (bufferBase b) n

/-- Bytes written into a buffer from byte 0, as many as fit its 128 positions. -/
def State.writeBuffer (s : State) (b : BufNo) (bytes : List Byte) : State :=
  { s with pool := { s.pool with mem := Memory.writeBytes s.pool.mem (bufferBase b) (bytes.take 128) } }

/-! ### Record states -/

/-- ACTIVE, SILENT and SUSPENDED: the states of a Ring member (R38). -/
def RecState.isMember : RecState → Bool
  | .active | .silent | .suspended => true
  | .admitting | .retiring | .retired => false

/-- The five states whose address is indexed and whose identity counts (R7, R11). -/
def RecState.counts : RecState → Bool
  | .retired => false
  | .admitting | .active | .silent | .suspended | .retiring => true

/-- A count stepped by one, stopping at its largest value. -/
def satInc (limit n : Nat) : Nat := min limit (n + 1)

/-! ### Change reasons (R176, R177) -/

/-- The bit of a reason in the set (R199). -/
def Reason.bit : Reason → BitVec 9
  | .admitted => 0x001
  | .silent => 0x002
  | .recovered => 0x004
  | .held => 0x008
  | .holdEnded => 0x010
  | .delivered => 0x020
  | .undelivered => 0x040
  | .owner => 0x080
  | .retired => 0x100

/-- A record with a reason added and the matching count stepped (R177 steps 2 to 4). -/
def Record.addReason (r : Record) (why : Reason) : Record :=
  { r with
    reasons := r.reasons ||| why.bit
    delivered := if why = .delivered then satInc 255 r.delivered else r.delivered
    undelivered := if why = .undelivered then satInc 255 r.undelivered else r.undelivered }

/-- A slot joins the tail of a channel's Change List (R178). -/
def State.joinChangeList (s : State) (ch : Channel) (i : SlotNo) : State :=
  s.setPort ch { s.port ch with changeList := (s.port ch).changeList ++ [i] }

/-- Posting a reason to a record (R177). -/
def State.post (s : State) (i : SlotNo) (why : Reason) : State :=
  match s.record i with
  | none => s
  | some r =>
    if r.state = .retired then s
    else
      let s1 := s.setRecord i (some (r.addReason why))
      if r.reasons = 0 then s1.joinChangeList r.owner i else s1

/-! ### Buffers (R156, R157) -/

/-- A buffer becomes FREE at the tail of the free buffer list. -/
def State.freeBuffer (s : State) (b : BufNo) : State :=
  let s1 := s.setPlace b .free
  { s1 with pool := { s1.pool with free := s1.pool.free ++ [b] } }

/-- Buffers freed in order, each counted and posted UNDELIVERED to a record (R19 step 4). -/
def State.freeUndelivered (s : State) (i : SlotNo) : List BufNo → State
  | [] => s
  | b :: bs => State.freeUndelivered ((s.freeBuffer b).post i .undelivered) i bs

/-- The buffer's place is the channel's hands. -/
def State.isHeld (s : State) (ch : Channel) (b : BufNo) : Bool := decide ((s.buffer b).place = .held ch)

/-! ### The exchange's hold on its target (R12) -/

/-- The Current Exchange holds the record of a slot. -/
def State.holds (s : State) (i : SlotNo) : Bool :=
  match s.trunk.current with
  | some { target := some h, .. } => decide (h.slot = i)
  | _ => false

/-- The outbound buffer of the Current Exchange, when it holds this record. -/
def State.carried (s : State) (i : SlotNo) : Option BufNo :=
  match s.trunk.current with
  | some x => if s.holds i then x.outbound else none
  | none => none

/-- The exchange releases its target: target, sent N(S), outbound and reserved buffer become absent (R81). -/
def State.releaseTarget (s : State) : State :=
  { s with trunk := { s.trunk with
      current := s.trunk.current.map (fun x =>
        { x with target := none, sentNS := none, outbound := none, reserved := none }) } }

/-! ### The Ring (R39, R40) -/

/-- A record joins the tail of the Ring; the cursor stays. -/
def State.appendRing (s : State) (i : SlotNo) : State :=
  { s with poll := { s.poll with ring := s.poll.ring ++ [i] } }

/-- A record leaves the Ring, with the cursor correction of R40. -/
def State.removeRing (s : State) (i : SlotNo) : State :=
  if i ∈ s.poll.ring then
    { s with poll := { s.poll with
        ring := s.poll.ring.erase i
        cursor := if s.poll.ring.idxOf i < s.poll.cursor then s.poll.cursor - 1 else s.poll.cursor } }
  else s

/-! ### The queues of the registry (R9, R10) -/

/-- A record leaves the Admit Queue. -/
def State.removeAdmit (s : State) (i : SlotNo) : State :=
  { s with registry := { s.registry with admitQueue := s.registry.admitQueue.erase i } }

/-- A record joins the tail of the Admit Queue. -/
def State.joinAdmit (s : State) (i : SlotNo) : State :=
  { s with registry := { s.registry with admitQueue := s.registry.admitQueue ++ [i] } }

/-- A record leaves the Dismissal Queue. -/
def State.removeDismiss (s : State) (i : SlotNo) : State :=
  { s with registry := { s.registry with dismissQueue := s.registry.dismissQueue.erase i } }

/-- A record joins the tail of the Dismissal Queue. -/
def State.joinDismiss (s : State) (i : SlotNo) : State :=
  { s with registry := { s.registry with dismissQueue := s.registry.dismissQueue ++ [i] } }

/-! ### Retirement (R18 to R23) -/

/-- A record enters RETIRED (R23): its address leaves the index, dismiss pending becomes absent, RETIRED is posted as
the last posting it takes (R177), and its state becomes RETIRED. -/
def State.enterRetired (s : State) (i : SlotNo) : State :=
  match s.record i with
  | none => s
  | some r =>
    (((s.setIndex r.address none).updRecord i fun r => { r with dismissPending := none }).post i .retired).updRecord i
      fun r => { r with state := .retired }

/-- A RETIRING record that no exchange holds and whose dismiss pending is no enters RETIRED (R22). -/
def State.settleRetiring (s : State) (i : SlotNo) : State :=
  match s.record i with
  | some r =>
    if r.state = .retiring ∧ r.dismissPending = some false ∧ s.holds i = false then s.enterRetired i else s
  | none => s

/-- What entering retirement does to the record's own fields (R19 steps 1, 3, 4, 5): the cause is set, hold, skip count,
miss count, failed probes and admit attempts are discarded, and the outbound queue keeps only a carried buffer. -/
def Record.retireFields (r : Record) (cause : RetireCause) (kept : List BufNo) : Record :=
  { r with
    retireCause := some cause
    hold := none
    outq := kept
    headAttempts := if kept = [] then none else r.headAttempts
    skip := none
    missCount := none
    failedProbes := none
    admitAttempts := none }

/-- A record enters retirement, and then RETIRING or RETIRED (R19, R20). -/
def State.enterRetirement (s : State) (i : SlotNo) (cause : RetireCause) (dismiss : Bool) : State :=
  match s.record i with
  | none => s
  | some r =>
    let kept := r.outq.filter fun b => s.carried i = some b
    let gone := r.outq.filter fun b => s.carried i ≠ some b
    let s1 := s.setRecord i (some (r.retireFields cause kept))
    let s2 := if r.state.isMember then s1.removeRing i else s1
    let s3 := if r.state = .admitting then s2.removeAdmit i else s2
    let s4 := s3.freeUndelivered i gone
    if s.holds i || dismiss then
      let s5 := s4.updRecord i fun r => { r with state := .retiring, dismissPending := some dismiss }
      if dismiss then s5.joinDismiss i else s5
    else s4.enterRetired i

/-! ### New records (R3, R4) -/

/-- The fields of a new record that its creating event does not give (R4). -/
def Record.fresh (state : RecState) (address : Byte) (identity : List Byte) (cls : Class) (owner : Channel) : Record where
  state := state
  address := address
  identity := identity
  cls := cls
  owner := owner
  skip := if state = .active then some 0 else none
  sendSeq := 0
  recvSeq := 0
  outq := []
  headAttempts := none
  missCount := if state = .active then some 0 else none
  failedProbes := none
  hold := none
  admitAttempts := if state = .admitting then some 0 else none
  retireCause := none
  dismissPending := none
  replies := 0
  retransmissions := 0
  reasons := 0
  delivered := 0
  undelivered := 0

/-- A record is created in the slot at the head of the Free Slot List, whose generation steps (R3), and its address
enters the Address Index (R7). None when no slot is free. -/
def State.createRecord (s : State) (r : Record) : Option (SlotNo × State) :=
  match s.registry.freeSlots with
  | [] => none
  | i :: rest =>
    let s1 := { s with registry := { s.registry with freeSlots := rest } }
    let s2 := s1.setSlot i { gen := (s.slot i).gen + 1, record := some r }
    some (i, s2.setIndex r.address (some i))

/-- The record, other than FREE and RETIRED, that holds an identity (R11). -/
def State.findIdentity (s : State) (identity : List Byte) : Option SlotNo :=
  allSlots.find? fun i =>
    match s.record i with
    | some r => r.state.counts && r.identity == identity
    | none => false

end Sys2Proof.Machine
end

