-- ==== Sys2Proof/Machine/Operands.lean ====
section
/-! DEFINITION. Command arguments and result words: how fields lie in W1 to W6, and the codings of handles, states,
enumerated fields and sets (R199). -/

namespace Sys2Proof.Machine

/-- Bits 7 to 0 of a word. -/
def loByte (w : Word) : Byte := w.setWidth 8

/-- Bits 15 to 8 of a word. -/
def hiByte (w : Word) : Byte := (w >>> 8).setWidth 8

/-- A word from its two bytes, the first in bits 7 to 0. -/
def ofBytes (lo hi : Byte) : Word := hi ++ lo

/-- A field of a result word: width bits of v, from bit pos up. -/
def bitsAt (v width pos : Nat) : Nat := (v % 2 ^ width) * 2 ^ pos

/-- A number as a word. -/
def wordOf (n : Nat) : Word := BitVec.ofNat 16 n

/-- Two byte fields as a word, the first named in bits 7 to 0 (R199). -/
def wordOf2 (first second : Nat) : Word := wordOf (bitsAt first 8 0 + bitsAt second 8 8)

/-! ### Codings of R199 -/

def handleWord (h : Handle) : Word := ofBytes (BitVec.ofNat 8 h.slot.val) h.gen

def RecState.code : RecState → Nat
  | .admitting => 1
  | .active => 2
  | .silent => 3
  | .suspended => 4
  | .retiring => 5
  | .retired => 6

/-- The state of a slot as coded in results: FREE is 0. -/
def State.stateCode (s : State) (i : SlotNo) : Nat :=
  match s.record i with
  | none => 0
  | some r => r.state.code

def RetireCause.code : RetireCause → Nat
  | .host => 1
  | .left => 2
  | .lost => 3
  | .rejoined => 4
  | .admitFailed => 5

/-- The retire cause as coded in results: NONE is 0. -/
def causeCode : Option RetireCause → Nat
  | none => 0
  | some c => c.code

def Class.code : Class → Nat
  | .fast => 0
  | .slow => 1

def channelCode : Channel → Nat
  | .ch0 => 0
  | .ch1 => 1

def LineState.code : LineState → Nat
  | .off => 0
  | .idle => 1
  | .sending => 2
  | .awaiting => 3
  | .guard => 4
  | .fault => 5

def ClockSource.code : ClockSource → Nat
  | .internal => 0
  | .external => 1

def FilterAction.code : FilterAction → Nat
  | .refuse => 0
  | .admitIt => 1

def Disposition.code : Disposition → Nat
  | .undecided => 0
  | .deferred _ _ => 1

def yesNo (b : Bool) : Nat := if b then 1 else 0

def ResultCode.code : ResultCode → Nat
  | .ok => 0
  | .badCommand => 1
  | .badArgument => 2
  | .notPermitted => 3
  | .staleHandle => 4
  | .wrongState => 5
  | .noSlot => 6
  | .noAddress => 7
  | .addressInUse => 8
  | .identityInUse => 9
  | .queueFull => 10
  | .noBuffer => 11
  | .notHeld => 12
  | .empty => 13
  | .notFound => 14
  | .lineActive => 15
  | .aborted => 16

def ChanState.code : ChanState → Nat
  | .idle => 0
  | .pending => 1
  | .executing => 2
  | .done => 3

/-- How an exchange ended, in STOP LINE's results (R106): NONE 0, ABORTED 1, DRAINED 2. -/
def endedNone : Nat := 0
def endedAborted : Nat := 1
def endedDrained : Nat := 2

/-! ### Arguments -/

/-- An argument word of a channel; W1 is number 0 (R199). -/
def State.arg (s : State) (ch : Channel) (n : Fin 6) : Word := (s.port ch).words[n]

/-- The first option, bit 8 of the command word: KEEP, dismiss or ABORT. -/
def State.option1 (s : State) (ch : Channel) : Bool := (s.port ch).opts.getLsbD 0

/-- The second option, bit 9: CLEAR or DRAIN. -/
def State.option2 (s : State) (ch : Channel) : Bool := (s.port ch).opts.getLsbD 1

/-- The slot a handle argument names; none when its slot byte is above 63 (R193 check 3). -/
def slotOf (w : Word) : Option SlotNo :=
  if h : (loByte w).toNat < 64 then some ⟨(loByte w).toNat, h⟩ else none

/-- The buffer an argument names; none above 31. -/
def bufOf (w : Word) : Option BufNo :=
  if h : w.toNat < 32 then some ⟨w.toNat, h⟩ else none

/-- A class argument; none when it is neither FAST nor SLOW. -/
def classOf (n : Nat) : Option Class :=
  match n with
  | 0 => some .fast
  | 1 => some .slow
  | _ => none

/-- An owner argument; none when it names no channel. -/
def ownerOf (n : Nat) : Option Channel :=
  match n with
  | 0 => some .ch0
  | 1 => some .ch1
  | _ => none

def clockOf (n : Nat) : Option ClockSource :=
  match n with
  | 0 => some .internal
  | 1 => some .external
  | _ => none

def actionOf (n : Nat) : Option FilterAction :=
  match n with
  | 0 => some .refuse
  | 1 => some .admitIt
  | _ => none

def yesNoOf (n : Nat) : Option Bool :=
  match n with
  | 0 => some false
  | 1 => some true
  | _ => none

/-- A class and an owner in one word, class in bits 7 to 0. -/
def classOwnerOf (w : Word) : Option (Class × Channel) :=
  match classOf (loByte w).toNat, ownerOf (hiByte w).toNat with
  | some c, some o => some (c, o)
  | _, _ => none

/-- A range check on an argument word. -/
def inRange (w : Word) (low high : Nat) : Bool := decide (low ≤ w.toNat ∧ w.toNat ≤ high)

/-! ### Staging (R172, R173) -/

/-- An item staged out: its bytes from byte 0, and the buffer's length becomes the item's. -/
def State.stageOut (s : State) (b : BufNo) (item : List Byte) : State :=
  let s1 := s.writeBuffer b item
  s1.setBuffer b { s1.buffer b with length := item.length }

/-! ### Holds (R114) -/

/-- The remaining time of a hold as read: whole quanta, rounded up; 0 when absent. -/
def holdReading : Option Nat → Nat
  | none => 0
  | some t => (t + Config.quantum - 1) / Config.quantum

end Sys2Proof.Machine
end

