-- ==== Sys2Proof/Machine/Frames.lean ====
section
/-! DEFINITION. Frames on the trunk: the check (R57), the frames the part sends (R56, R58), reception (R64) and the
judgement of a received frame (R65, R66, R68). -/

namespace Sys2Proof.Machine

/-! ### The check (R57) -/

/-- One bit of the CRC: the polynomial x^16 + x^12 + x^5 + 1, most significant bit first. -/
def crcBit (crc : Word) : Word := if crc.getLsbD 15 then (crc <<< 1) ^^^ 0x1021 else crc <<< 1

/-- One byte of the CRC. -/
def crcByte (crc : Word) (b : Byte) : Word :=
  let c := crc ^^^ (ofBytes 0 b)
  crcBit (crcBit (crcBit (crcBit (crcBit (crcBit (crcBit (crcBit c)))))))

/-- The CRC of bytes in frame order, preset to 0xFFFF, with no inversion at the end. -/
def crc (bytes : List Byte) : Word := bytes.foldl crcByte 0xFFFF

/-! ### Frames sent -/

/-- The start mark (R56). -/
def startMark : List Byte := [0x5A, 0xC3]

/-- The sequence byte: N(S) in bits 6 to 4, N(R) in bits 2 to 0 (R56). -/
def seqByte (ns nr : BitVec 3) : Byte := (0 : BitVec 1) ++ ns ++ (0 : BitVec 1) ++ nr

/-- The kind byte: kind code in bits 7 to 4, flags in bits 3 to 0 (R56). -/
def kindByte (code flags : BitVec 4) : Byte := code ++ flags

/-- A frame's bytes, in the order they are sent (R56). -/
def frameBytes (address : Byte) (code flags : BitVec 4) (sequence : Byte) (payload : List Byte) : List Byte :=
  let inner := [address, kindByte code flags, sequence, BitVec.ofNat 8 payload.length] ++ payload
  startMark ++ inner ++ [hiByte (crc inner), loByte (crc inner)]

/-- The flags of a POLL or DATA frame: NO ROOM, bit 0, when no buffer was reserved (R58). -/
def roomFlags (reserved : Option BufNo) : BitVec 4 := if reserved.isSome then 0 else 1

/-- The POLL frame (R58). -/
def pollFrame (r : Record) (reserved : Option BufNo) : List Byte :=
  frameBytes r.address 1 (roomFlags reserved) (seqByte r.sendSeq r.recvSeq) []

/-- The DATA frame (R58). -/
def dataFrame (r : Record) (reserved : Option BufNo) (message : List Byte) : List Byte :=
  frameBytes r.address 2 (roomFlags reserved) (seqByte r.sendSeq r.recvSeq) message

/-- The INVITE frame: partition width, then partition number, to address 255 (R58). -/
def inviteFrame (width partition : Nat) : List Byte :=
  frameBytes 255 3 0 0 [BitVec.ofNat 8 width, BitVec.ofNat 8 partition]

/-- The ADMIT frame: the assigned address, then the identity, to address 0 (R58). -/
def admitFrame (r : Record) : List Byte := frameBytes 0 4 0 0 (r.address :: r.identity)

/-- The DISMISS frame (R58). -/
def dismissFrame (r : Record) : List Byte := frameBytes r.address 5 0 0 []

/-- The lead-in of a transmission, in bit times (R61). -/
def leadIn : Nat := 8

/-- How long a frame occupies the line: 8 bit times of lead-in and 8 for each byte (R61). -/
def frameBitTimes (frame : List Byte) : Nat := leadIn + 8 * frame.length

/-! ### Reception (R64) -/

/-- How reception ended. -/
inductive Reception where
  /-- The first sixteen bits were not the start mark. -/
  | badOpening
  /-- The length byte was above 120. -/
  | tooLong
  /-- The clock was lost before reception had ended. -/
  | truncated
  /-- The frame was received to its end; its bytes, start mark included. -/
  | whole (frame : List Byte)
deriving DecidableEq, Repr

/-- The first n bytes of what arrived. Past what the outstation sent, the line rests at mark, so a receiver whose clock
goes on reads mark bits (R64); with the clock lost there are no more. -/
def arrived (bytes : List Byte) (clockLost : Bool) (n : Nat) : Option (List Byte) :=
  if n ≤ bytes.length then some (bytes.take n)
  else if clockLost then none
  else some (bytes ++ List.replicate (n - bytes.length) 0xFF)

/-- A byte of a frame by its number in R56; 0 outside it. -/
def frameByte (frame : List Byte) (n : Nat) : Byte := frame.getD n 0

/-- Reception of a reply from its first space bit (R64). -/
def receive (bytes : List Byte) (clockLost : Bool) : Reception :=
  match arrived bytes clockLost 2 with
  | none => .truncated
  | some opening =>
    if opening ≠ startMark then .badOpening
    else
      match arrived bytes clockLost 6 with
      | none => .truncated
      | some header =>
        let n := (frameByte header 5).toNat
        if 120 < n then .tooLong
        else
          match arrived bytes clockLost (8 + n) with
          | none => .truncated
          | some frame => .whole frame

/-- The kind code of a frame, bits 7 to 4 of byte 3 (R56). -/
def frameKind (frame : List Byte) : Nat := (frameByte frame 3).toNat / 16

/-- The payload of a whole frame. -/
def framePayload (frame : List Byte) : List Byte := (frame.drop 6).take (frameByte frame 5).toNat

/-- N(S) of a frame, bits 6 to 4 of byte 4. -/
def frameNS (frame : List Byte) : BitVec 3 := (frameByte frame 4).extractLsb' 4 3

/-- N(R) of a frame, bits 2 to 0 of byte 4. -/
def frameNR (frame : List Byte) : BitVec 3 := (frameByte frame 4).extractLsb' 0 3

/-- The payload bytes of a reply of kind DATA that the receiver has taken when reception ends (R70). -/
def dataPayloadTaken (bytes : List Byte) (clockLost : Bool) : List Byte :=
  match receive bytes clockLost with
  | .whole frame => if frameKind frame = 9 then framePayload frame else []
  | .truncated =>
    if 6 ≤ bytes.length ∧ frameKind bytes = 9 then framePayload bytes else []
  | .badOpening | .tooLong => []

/-! ### Outside a reply window (R67) -/

/-- The start mark as sixteen bits, the first on the line in bit 0: 0x5A, then 0xC3, each least significant bit first. -/
def markBits : Word := 0xC35A

/-- A register after one bit more, the latest at the top. -/
def shiftIn {n : Nat} (b : Bool) (last : BitVec (n + 1)) : BitVec (n + 1) := BitVec.cons b (last.extractLsb' 1 n)

/-- One bit of the hunt: where the receiver stands after it, and whether it completed a start mark. The header is the four
bytes to the length byte; a length above 120 ends the stray frame there, and else its payload and its two check bytes
follow. -/
def Hunt.hear (h : Hunt) (b : Bool) : Hunt × Bool :=
  match h with
  | .seeking last =>
    let now := shiftIn b last
    if now = markBits then (.header 0 0, true) else (.seeking now, false)
  | .header taken last =>
    let now := shiftIn b last
    if taken + 1 < 32 then (.header (taken + 1) now, false)
    else if 120 < now.toNat then (Hunt.start, false)
    else (.discarding (8 * now.toNat + 16), false)
  | .discarding left => (if 1 < left then .discarding (left - 1) else Hunt.start, false)

/-- A stray frame is in progress. -/
def Hunt.inFrame : Hunt → Bool
  | .seeking _ => false
  | .header _ _ | .discarding _ => true

/-! ### Judgement (R65, R66, R68) -/

/-- What a valid reply says (R59). -/
inductive ReplyKind where
  | idle
  | data (length : Nat)
  | hold (value : Nat)
  | join (identity : List Byte)
  | leave
deriving DecidableEq, Repr

/-- A valid reply (R69). -/
structure Reply where
  kind : ReplyKind
  ns : BitVec 3
  nr : BitVec 3
deriving DecidableEq, Repr

/-- Why a frame fails. A failed opening is apart, since a join window counts it differently (R66). -/
inductive FrameError where
  | opening | check | format | stray | unexpected
deriving DecidableEq, Repr

/-- The verdict on a received frame. -/
inductive Verdict where
  | valid (reply : Reply)
  | invalid (error : FrameError)
deriving DecidableEq, Repr

/-- The check field of a whole frame equals the CRC of its address to payload bytes (R57). -/
def checkPasses (frame : List Byte) : Bool :=
  let n := (frameByte frame 5).toNat
  let inner := (frame.drop 2).take (4 + n)
  decide (frameByte frame (6 + n) = hiByte (crc inner) ∧ frameByte frame (7 + n) = loByte (crc inner))

/-- Kind code and length pass FORMAT (R59, R65). Codes 1 to 5 are well formed, of a kind no reply may have: R65 gives
them no length (log entry 12). -/
def formatPasses (kind length : Nat) : Bool :=
  match kind with
  | 1 | 2 | 3 | 4 | 5 => true
  | 8 => decide (length = 0)
  | 9 => decide (length ≤ 120)
  | 10 => decide (length = 2)
  | 11 => decide (1 ≤ length ∧ length ≤ 16)
  | 12 => decide (length = 0)
  | _ => false

/-- The hold value: the low 12 bits of the payload, high byte first (R59). -/
def holdValue (payload : List Byte) : Nat := ((payload.getD 0 0).toNat % 16) * 256 + (payload.getD 1 0).toNat

/-- The reply a frame of kind code 8 to 12 carries. -/
def replyOf (frame : List Byte) : Option ReplyKind :=
  let payload := framePayload frame
  match frameKind frame with
  | 8 => some .idle
  | 9 => some (.data payload.length)
  | 10 => some (.hold (holdValue payload))
  | 11 => some (.join payload)
  | 12 => some .leave
  | _ => none

/-- The reply kinds an exchange allows (R68). -/
def allows : ExchangeKind → ReplyKind → Bool
  | .poll, .idle | .poll, .data _ | .poll, .hold _ | .poll, .leave => true
  | .data, .idle | .data, .data _ | .data, .hold _ | .data, .leave => true
  | .admitExchange, .idle => true
  | .invite, .join _ => true
  | _, _ => false

/-- The judgement of what was received, in the order of R65. The address the exchange expects is given as a test. -/
def judge (kind : ExchangeKind) (expected : Byte → Bool) (got : Reception) : Verdict :=
  match got with
  | .badOpening => .invalid .opening
  | .tooLong | .truncated => .invalid .format
  | .whole frame =>
    if !checkPasses frame then .invalid .check
    else if !formatPasses (frameKind frame) (frameByte frame 5).toNat then .invalid .format
    else if !expected (frameByte frame 2) then .invalid .stray
    else
      match replyOf frame with
      | none => .invalid .unexpected
      | some k => if allows kind k then .valid { kind := k, ns := frameNS frame, nr := frameNR frame } else .invalid .unexpected

/-! ### Line error counters (R74) -/

/-- A counter stepped: 0 to 65535, saturating. -/
def countUp (n : Nat) : Nat := satInc 65535 n

/-- The counter of an invalid reply in a POLL, DATA or ADMIT window (R74). -/
def Counters.countReply (c : Counters) : FrameError → Counters
  | .opening | .format => { c with format := countUp c.format }
  | .check => { c with check := countUp c.check }
  | .stray => { c with stray := countUp c.stray }
  | .unexpected => { c with unexpected := countUp c.unexpected }

/-- The counter of an invalid frame in a join window (R66, R74). -/
def Counters.countJoin (c : Counters) : FrameError → Counters
  | .opening | .check => { c with joinCollision := countUp c.joinCollision }
  | .format => { c with format := countUp c.format }
  | .stray => { c with stray := countUp c.stray }
  | .unexpected => { c with unexpected := countUp c.unexpected }

/-- The state with its line error counters changed. -/
def State.updCounters (s : State) (f : Counters → Counters) : State :=
  { s with trunk := { s.trunk with counters := f s.trunk.counters } }

end Sys2Proof.Machine
end

