-- ==== Sys2Proof/Machine/Flags.lean ====
section
/-! DEFINITION. What is computed from the state: interrupt causes and outputs (R183 to R185), the words a bus read
returns (spec/09 9.1), and the pins (R61, R71, R79, R198). -/

namespace Sys2Proof.Machine

/-- CHANGE: the channel's Change List is not empty (R183). -/
def State.causeChange (s : State) (ch : Channel) : Bool := !(s.port ch).changeList.isEmpty

/-- MESSAGE: the channel's delivery queue is not empty (R183). -/
def State.causeMessage (s : State) (ch : Channel) : Bool := !(s.port ch).deliveryQueue.isEmpty

/-- Whether the Candidate List holds an UNDECIDED entry (R143). -/
def State.undecidedPresent (s : State) : Bool := s.adm.candidates.any fun c => c.disposition == .undecided

/-- CANDIDATE, on Channel 0 alone (R143, R183). -/
def State.causeCandidate (s : State) : Channel → Bool
  | .ch0 => s.undecidedPresent
  | .ch1 => false

/-- LINE, on Channel 0 alone (R183). -/
def State.causeLine (s : State) : Channel → Bool
  | .ch0 => s.lineCause
  | .ch1 => false

/-- The cause word: CHANGE, MESSAGE, DONE, WINDOW, CANDIDATE, LINE from bit 0 up (spec/09 9.1). -/
def State.causes (s : State) (ch : Channel) : BitVec 6 :=
  BitVec.ofBool (s.causeLine ch) ++ BitVec.ofBool (s.causeCandidate ch) ++ BitVec.ofBool (s.port ch).window
    ++ BitVec.ofBool (s.port ch).done ++ BitVec.ofBool (s.causeMessage ch) ++ BitVec.ofBool (s.causeChange ch)

/-- A channel's interrupt output: asserted while a true cause has its enable set (R185). -/
def State.interruptOut (s : State) (ch : Channel) : Bool := decide (s.causes ch &&& (s.port ch).enables ≠ 0)

/-- Driver enable: asserted while a frame is sent (R61, R79). -/
def State.driverEnable (s : State) : Bool := decide (s.trunk.line = .sending)

/-- The line clock pin is driven: INTERNAL source, in every state but OFF (R71, R79). -/
def State.clockDriven (s : State) : Bool :=
  decide (s.trunk.config.clock = .internal ∧ s.trunk.line ≠ .off)

/-- The status word (spec/09 9.1). -/
def State.statusWord (s : State) (ch : Channel) : Word :=
  let p := s.port ch
  wordOf (bitsAt p.state.code 2 0 + bitsAt (yesNo p.overrun) 1 2 + bitsAt p.result.code 5 8)

/-- The window select word (R168, spec/09 9.1). -/
def State.selectWord (s : State) (ch : Channel) : Word :=
  let p := s.port ch
  wordOf (bitsAt p.winOff.toNat 7 0 + bitsAt p.winBuf.toNat 5 8)

/-- The channel a word address selects, by its bit 4 (spec/09 9.6). -/
def addrChannel (addr : BitVec 5) : Channel := if addr.getLsbD 4 then .ch1 else .ch0

/-- The offset a word address names, its bits 3 to 0. -/
def addrOffset (addr : BitVec 5) : Nat := addr.toNat % 16

/-- What a read of a location returns that changes nothing (R188): every location but the window data word, whose read
is the command WINDOW_DATA_READ. While reset in is asserted every read returns 0. -/
def State.readWord (s : State) (addr : BitVec 5) : Word :=
  let ch := addrChannel addr
  if s.resetIn then 0
  else
    match addrOffset addr with
    | 0 => s.statusWord ch
    | 1 => s.arg ch 0
    | 2 => s.arg ch 1
    | 3 => s.arg ch 2
    | 4 => s.arg ch 3
    | 5 => s.arg ch 4
    | 6 => s.arg ch 5
    | 7 => (s.causes ch).setWidth 16
    | 8 => ((s.port ch).enables).setWidth 16
    | 9 => s.selectWord ch
    | _ => 0

end Sys2Proof.Machine
end

