-- ==== Sys2Proof/Machine/HostPort.lean ====
section
/-! DEFINITION. The channels and the Command Engine (R188 to R195): the write of a command word, the take, the
completion, the checks every record command shares, and the bus writes. -/

namespace Sys2Proof.Machine

/-- While reset in is asserted nothing runs and writes are ignored (R188, R198). -/
def unlessReset (f : State → State) (s : State) : Host.Outcome State Fault Refusal :=
  if s.resetIn then .next s else .next (f s)

/-! ### Command words and the Command Engine -/

/-- A write of the command word (R190): it starts a command in IDLE and DONE; in PENDING and EXECUTING it is ignored and
sets the overrun flag. -/
def State.writeCommand (s : State) (ch : Channel) (code opts : Byte) : State :=
  let p := s.port ch
  match p.state with
  | .idle | .done =>
    s.setPort ch { p with state := .pending, code := code, opts := opts, done := false, overrun := false }
  | .pending | .executing => s.setPort ch { p with overrun := true }

/-- The channel is PENDING with this code. -/
def State.pendingWith (s : State) (ch : Channel) (code : Byte) : Bool :=
  decide ((s.port ch).state = .pending ∧ (s.port ch).code = code)

/-- The state once the host has issued the command: its command word is written, unless the channel is PENDING with
this very command already (log entry 2). -/
def State.issued (s : State) (ch : Channel) (code opts : Byte) : State :=
  if s.pendingWith ch code then s else s.writeCommand ch code opts

/-- The Command Engine takes this channel's command next: it is PENDING, and when the other channel is PENDING too,
this channel is not the one served last (R192). -/
def State.engineTakes (s : State) (ch : Channel) (code : Byte) : Bool :=
  s.pendingWith ch code && (decide ((s.port (otherChannel ch)).state ≠ .pending) || decide (s.servedLast ≠ ch))

/-- The take: the channel is EXECUTING while its command is carried out, and the indicator names it (R191, R192). -/
def State.taken (s : State) (ch : Channel) : State :=
  let s1 := s.setPort ch { s.port ch with state := .executing }
  { s1 with servedLast := ch }

/-- A host command of the table: it is issued, and taken when the engine serves its channel; otherwise it stays as the
write left it (log entry 2). -/
def command (code : Byte) (body : Channel → State → State) (ch : Channel) (opts : Byte) (s : State) :
    Host.Outcome State Fault Refusal :=
  unlessReset (fun s =>
    let s1 := s.issued ch code opts
    if s1.engineTakes ch code then body ch (s1.taken ch) else s1) s

/-- Six words: those given, and 0 in the rest (R189). -/
def sixWords (ws : List Word) : Vector Word 6 :=
  #v[ws.getD 0 0, ws.getD 1 0, ws.getD 2 0, ws.getD 3 0, ws.getD 4 0, ws.getD 5 0]

/-- A completion (R189, R191, R184): result code, all six words, DONE, and the DONE cause. Only OK carries results. -/
def State.complete (s : State) (ch : Channel) (code : ResultCode) (ws : List Word) : State :=
  s.setPort ch { s.port ch with
    state := .done
    result := code
    words := if code = .ok then sixWords ws else sixWords []
    done := true }

/-- A command that failed a check completes with that check's code and changes nothing else (R193). -/
def State.fail (s : State) (ch : Channel) (code : ResultCode) : State := s.complete ch code []

/-- The channel check of a command reserved to Channel 0 (R193 check 2). -/
def onChannel0 (ch : Channel) (s : State) (k : State) : State :=
  match ch with
  | .ch0 => k
  | .ch1 => s.fail ch .notPermitted

/-- The checks of a command that names a record in W1 (R193 checks 3 to 5, R6): its arguments in range, the slot byte
among them; then the handle valid; then, for a command that changes the record, the owner. -/
def withRecord (ch : Channel) (s : State) (changes argsOk : Bool) (k : SlotNo → Record → State) : State :=
  match slotOf (s.arg ch 0) with
  | none => s.fail ch .badArgument
  | some i =>
    if argsOk then
      match s.record i with
      | none => s.fail ch .staleHandle
      | some r =>
        if (s.slot i).gen ≠ hiByte (s.arg ch 0) then s.fail ch .staleHandle
        else if changes = true ∧ ch = .ch1 ∧ r.owner = .ch0 then s.fail ch .notPermitted
        else k i r
    else s.fail ch .badArgument

/-- A command word with an unassigned code is taken and completes with BAD_COMMAND (R193 check 1). An assigned code is
no term of this row: its word is written, and that command's own row takes it (log entry 25). -/
def execBadCommand (ch : Channel) (opts code : Byte) (s : State) : Host.Outcome State Fault Refusal :=
  unlessReset (fun s =>
    let s1 := s.issued ch code opts
    if s1.engineTakes ch code && !codeAssigned code then (s1.taken ch).fail ch .badCommand else s1) s

/-! ### Bus writes (R188) -/

/-- The cause word written: each event cause written with 1 is cleared, level causes are ignored (R184). -/
def State.writeCause (s : State) (ch : Channel) (v : Word) : State :=
  let p := s.port ch
  let s1 := s.setPort ch { p with
    done := p.done && !v.getLsbD 2
    window := p.window && !v.getLsbD 3 }
  match ch with
  | .ch0 => { s1 with lineCause := s1.lineCause && !v.getLsbD 5 }
  | .ch1 => s1

/-- The enable word written: six enables at once; Channel 1's CANDIDATE and LINE positions stay 0 (R185, R188). -/
def State.writeEnable (s : State) (ch : Channel) (v : Word) : State :=
  let mask : BitVec 6 := match ch with
    | .ch0 => 0x3F
    | .ch1 => 0x0F
  s.setPort ch { s.port ch with enables := v.setWidth 6 &&& mask }

/-- The window select word written: offset in bits 6 to 0, buffer in bits 12 to 8 (R168). -/
def State.writeSelect (s : State) (ch : Channel) (v : Word) : State :=
  s.setPort ch { s.port ch with winOff := v.setWidth 7, winBuf := (v >>> 8).setWidth 5 }

/-- The selected buffer. -/
def State.selected (s : State) (ch : Channel) : BufNo := (s.port ch).winBuf.toFin

/-- The memory addresses of the byte at the offset and the byte at the next position, 0 after 127 (R169). -/
def State.windowAddrs (s : State) (ch : Channel) : Nat × Nat :=
  let p := s.port ch
  (bufferBase (s.selected ch) + p.winOff.toNat, bufferBase (s.selected ch) + (p.winOff + 1).toNat)

/-- A refused window access sets the WINDOW cause and moves nothing (R170). -/
def State.windowRefused (s : State) (ch : Channel) : State := s.setPort ch { s.port ch with window := true }

/-- After an accepted access the offset advances by 2, modulo 128 (R169). -/
def State.windowAdvance (s : State) (ch : Channel) : State :=
  s.setPort ch { s.port ch with winOff := (s.port ch).winOff + 2 }

/-- What the bus returned for a window data read. -/
def State.setReadData (s : State) (ch : Channel) (v : Word) : State :=
  s.setPort ch { s.port ch with readData := v }

/-- A read of the window data word (R169, R170). -/
def State.readWindow (s : State) (ch : Channel) : State :=
  if s.isHeld ch (s.selected ch) then
    let a := s.windowAddrs ch
    (s.setReadData ch (ofBytes (Memory.read s.pool.mem a.1) (Memory.read s.pool.mem a.2))).windowAdvance ch
  else (s.setReadData ch 0).windowRefused ch

/-- A write of the window data word (R169, R170). -/
def State.writeWindow (s : State) (ch : Channel) (v : Word) : State :=
  if s.isHeld ch (s.selected ch) then
    let a := s.windowAddrs ch
    let mem := Memory.write (Memory.write s.pool.mem a.1 (loByte v)) a.2 (hiByte v)
    { s with pool := { s.pool with mem := mem } }.windowAdvance ch
  else s.windowRefused ch

/-- A write of an argument word: stored in IDLE and DONE, ignored in PENDING and EXECUTING (R189). -/
def State.writeArg (s : State) (ch : Channel) (n : Fin 6) (v : Word) : State :=
  let p := s.port ch
  match p.state with
  | .idle | .done => s.setPort ch { p with words := p.words.set n v }
  | .pending | .executing => s

/-- A bus write, by the word map (spec/09 9.1). -/
def State.busWrite (s : State) (addr : BitVec 5) (v : Word) : State :=
  let ch := addrChannel addr
  match addrOffset addr with
  | 0 => s.writeCommand ch (loByte v) (hiByte v)
  | 1 => s.writeArg ch 0 v
  | 2 => s.writeArg ch 1 v
  | 3 => s.writeArg ch 2 v
  | 4 => s.writeArg ch 3 v
  | 5 => s.writeArg ch 4 v
  | 6 => s.writeArg ch 5 v
  | 7 => s.writeCause ch v
  | 8 => s.writeEnable ch v
  | 9 => s.writeSelect ch v
  | 10 => s.writeWindow ch v
  | _ => s

/-- INTERRUPT_CAUSE_WRITE (R184). -/
def execInterruptCauseWrite (ch : Channel) (v : Word) (s : State) : Host.Outcome State Fault Refusal :=
  unlessReset (fun s => s.writeCause ch v) s

/-- INTERRUPT_ENABLE_WRITE (R185). -/
def execInterruptEnableWrite (ch : Channel) (v : Word) (s : State) : Host.Outcome State Fault Refusal :=
  unlessReset (fun s => s.writeEnable ch v) s

/-- WINDOW_SELECT_WRITE (R168). -/
def execWindowSelectWrite (ch : Channel) (v : Word) (s : State) : Host.Outcome State Fault Refusal :=
  unlessReset (fun s => s.writeSelect ch v) s

/-- WINDOW_DATA_READ (R169, R170). While reset in is asserted the read returns 0 (R188). -/
def execWindowDataRead (ch : Channel) (s : State) : Host.Outcome State Fault Refusal :=
  if s.resetIn then .next (s.setReadData ch 0) else .next (s.readWindow ch)

/-- WINDOW_DATA_WRITE (R169, R170). -/
def execWindowDataWrite (ch : Channel) (v : Word) (s : State) : Host.Outcome State Fault Refusal :=
  unlessReset (fun s => s.writeWindow ch v) s

/-- REGISTER_WRITE (R188 to R190). -/
def execRegisterWrite (addr : BitVec 5) (v : Word) (s : State) : Host.Outcome State Fault Refusal :=
  unlessReset (fun s => s.busWrite addr v) s

end Sys2Proof.Machine
end

