-- ==== Sys2Proof/Machine/PollRing.lean ====
section
/-! DEFINITION. The Poll Ring (spec/02): pass ends, visits, requests for a member, and SET POLLING. -/

namespace Sys2Proof.Machine

/-- The state with its Poll Ring changed. -/
def State.updPoll (s : State) (f : PollRing → PollRing) : State := { s with poll := f s.poll }

/-- The invite countdown steps at a pass end, under the interval in force (R49). -/
def PollRing.stepCountdown (p : PollRing) (interval : Nat) : PollRing :=
  if interval = 0 then { p with countdown := 0 }
  else if p.countdown - 1 = 0 then { p with countdown := interval, invitePending := true }
  else { p with countdown := p.countdown - 1 }

/-- A pass ends (R41): cursor 0, pass count stepped, an idle of one quantum begins when no poll was issued (R46), poll
issued becomes no, and the countdown steps. -/
def PollRing.endPass (p : PollRing) (interval : Nat) : PollRing :=
  { p with
    cursor := 0
    passCount := p.passCount + 1
    idle := if p.pollIssued then p.idle else some Config.quantum
    pollIssued := false }.stepCountdown interval

/-- A pass ends, in the state. -/
def State.endPass (s : State) : State := s.updPoll fun p => p.endPass s.adm.interval

/-- The judgement of a visit (R44): whether the member is due, and its skip count after. -/
def visitOutcome (slowDivisor : Nat) (r : Record) : Bool × Option Nat :=
  match r.state with
  | .active =>
    match r.cls with
    | .fast => (true, some 0)
    | .slow =>
      match r.skip with
      | some (n + 1) => (false, some n)
      | _ => (true, some (slowDivisor - 1))
  | .silent =>
    match r.skip with
    | some (n + 1) => (false, some n)
    | _ => (true, some 7)
  | .suspended | .admitting | .retiring | .retired => (false, r.skip)

/-- The answers to a request for a member (R43). -/
inductive Answer where
  | slot (i : SlotNo)
  | passEnded
  | idle
deriving DecidableEq, Repr

/-- The pass end of steps 1 and 3 of R43, and its answer. -/
def State.endPassAnswer (s : State) : State × Answer :=
  (s.endPass, if s.poll.pollIssued then .passEnded else .idle)

/-- The visit of one member: its skip count, the cursor, and poll issued when it is due (R43 step 2, R44, R45). -/
def State.visit (s : State) (i : SlotNo) : State × Bool :=
  match s.record i with
  | none => (s.updPoll fun p => { p with cursor := p.cursor + 1 }, false)
  | some r =>
    let out := visitOutcome s.poll.slowDivisor r
    let s1 := s.setRecord i (some { r with skip := out.2 })
    (s1.updPoll fun p => { p with cursor := p.cursor + 1, pollIssued := p.pollIssued || out.1 }, out.1)

/-- Visits from the cursor onward, over the members not yet visited in the pass (R43). -/
def State.visitFrom (s : State) : List SlotNo → State × Answer
  | [] => s.endPassAnswer
  | i :: rest =>
    let v := s.visit i
    if v.2 then (if rest = [] then v.1.endPass else v.1, .slot i)
    else State.visitFrom v.1 rest

/-- A request for a member (R43). During an idle it is answered IDLE and nothing changes. -/
def State.requestMember (s : State) : State × Answer :=
  if s.poll.idle.isSome then (s, .idle) else s.visitFrom (s.poll.ring.drop s.poll.cursor)

/-- SET POLLING lowers the skip count of an ACTIVE or SUSPENDED record to the new divisor minus one (R53). -/
def Record.lowerSkip (r : Record) (divisor : Nat) : Record :=
  match r.state with
  | .active | .suspended => { r with skip := r.skip.map fun k => min k (divisor - 1) }
  | .admitting | .silent | .retiring | .retired => r

/-- The slow divisor written, and the skip counts lowered (R53). Its present value changes nothing, not even the skip
count that a record suspended from SILENT kept above it (log entry 28). -/
def State.setDivisor (s : State) (divisor : Nat) : State :=
  if divisor = s.poll.slowDivisor then s
  else
    let s1 := s.updPoll fun p => { p with slowDivisor := divisor }
    { s1 with registry := { s1.registry with
        slots := s1.registry.slots.map (fun x => { x with record := x.record.map (fun r => r.lowerSkip divisor) }) } }

/-- The results of SET POLLING (R54, R199). -/
def State.pollingWords (s : State) : List Word :=
  [wordOf s.poll.slowDivisor, wordOf s.poll.ring.length, wordOf s.poll.cursor, s.poll.passCount,
   wordOf s.poll.countdown, wordOf (bitsAt (yesNo s.poll.invitePending) 1 0 + bitsAt (yesNo s.poll.idle.isSome) 1 1)]

/-- SET POLLING as taken (R53). -/
def bodySetPolling (ch : Channel) (s : State) : State :=
  onChannel0 ch s <|
    if s.option1 ch then s.complete ch .ok s.pollingWords
    else if inRange (s.arg ch 0) 2 16 then
      let s1 := s.setDivisor (s.arg ch 0).toNat
      s1.complete ch .ok s1.pollingWords
    else s.fail ch .badArgument

/-- SET_POLLING (R53, R54). -/
def execSetPolling (ch : Channel) (opts : Byte) (s : State) : Host.Outcome State Fault Refusal :=
  command 0x20 bodySetPolling ch opts s

end Sys2Proof.Machine
end

