-- ==== Sys2Proof/Machine/Trunk.lean ====
section
/-! DEFINITION. The Trunk Engine (spec/04): the choice of the next exchange, the windows, the outcomes of exchanges, the
turnaround guard and what follows it, aborts, and the entry to OFF. -/

namespace Sys2Proof.Machine

/-- The state with its Trunk Engine changed. -/
def State.updTrunk (s : State) (f : Trunk → Trunk) : State := { s with trunk := f s.trunk }

/-! ### Choosing an exchange (R82 to R87) -/

/-- The time of a transmission that the reference clock measures: with the INTERNAL source all of it, with the EXTERNAL
source its lead-in (R61, R71). -/
def txTime (c : LineConfig) (frame : List Byte) : Nat :=
  (match c.clock with
    | .internal => frameBitTimes frame
    | .external => leadIn) * Config.bitTime c.divisor

/-- An exchange becomes current and its frame begins to be sent (R80, R61). A stray frame in progress is dropped (R67). -/
def State.beginExchange (s : State) (x : Exchange) (frame : List Byte) : State :=
  s.updTrunk fun t => { t with
    line := .sending
    current := some x
    frame := frame
    receiving := false
    hunt := Hunt.start
    txTimer := some (txTime t.config frame)
    replyTimer := none
    guardTimer := none }

/-- A DISMISS exchange with a record (R84). -/
def State.beginDismiss (s : State) (i : SlotNo) (r : Record) : State :=
  s.beginExchange { kind := .dismiss, target := some (s.handle i), sentNS := none, outbound := none, reserved := none }
    (dismissFrame r)

/-- An ADMIT exchange with a record (R85). -/
def State.beginAdmit (s : State) (i : SlotNo) (r : Record) : State :=
  s.beginExchange { kind := .admitExchange, target := some (s.handle i), sentNS := none, outbound := none, reserved := none }
    (admitFrame r)

/-- An INVITE exchange: the invitation is no longer pending (R50), its partition values are fixed in the frame and the
next partition number advances (R86, R131). -/
def State.beginInvite (s : State) : State :=
  let s1 := s.beginExchange
    { kind := .invite, target := none, sentNS := none, outbound := none, reserved := none }
    (inviteFrame s.adm.width s.adm.nextPartition)
  let s2 := s1.updPoll fun p => { p with invitePending := false }
  { s2 with adm := { s2.adm with nextPartition := (s2.adm.nextPartition + 1) % 2 ^ s2.adm.width } }

/-- The receive reservation: the head of the free buffer list, if there is one, becomes RESERVED (R87 step 1, R161). -/
def State.reserve (s : State) : State × Option BufNo :=
  match s.pool.free with
  | [] => (s, none)
  | b :: rest =>
    let s1 := { s with pool := { s.pool with free := rest } }
    (s1.setPlace b .reserved, some b)

/-- A POLL or DATA exchange with a due member (R87, R119). -/
def State.beginPollData (s : State) (i : SlotNo) (r : Record) : State :=
  let v := s.reserve
  match r.outq, r.hold with
  | b :: _, none =>
    let message := v.1.bufferBytes b (v.1.buffer b).length
    v.1.beginExchange
      { kind := .data, target := some (s.handle i), sentNS := some r.sendSeq, outbound := some b, reserved := v.2 }
      (dataFrame r v.2 message)
  | _, _ =>
    v.1.beginExchange
      { kind := .poll, target := some (s.handle i), sentNS := some r.sendSeq, outbound := none, reserved := v.2 }
      (pollFrame r v.2)

/-- Whether a pending invitation may be sent: not while the Candidate List holds 8 entries and none is DEFERRED
(R82 step 3). -/
def State.inviteAllowed (s : State) : Bool :=
  s.poll.invitePending &&
    !(decide (8 ≤ s.adm.candidates.length) && s.adm.candidates.all fun c => c.disposition == .undecided)

/-- The choice of the next exchange (R82), with what follows an answer of PASS ENDED. -/
def State.chooseWith (onPassEnded : State → State) (s : State) : State :=
  match s.registry.dismissQueue, s.registry.admitQueue with
  | i :: _, _ =>
    match s.record i with
    | some r => s.beginDismiss i r
    | none => s
  | [], i :: _ =>
    match s.record i with
    | some r => s.beginAdmit i r
    | none => s
  | [], [] =>
    if s.inviteAllowed then s.beginInvite
    else
      let v := s.requestMember
      match v.2 with
      | .slot i =>
        match v.1.record i with
        | some r => v.1.beginPollData i r
        | none => v.1
      | .passEnded => onPassEnded v.1
      | .idle => v.1

/-- The choice starts again at most once within one event (R82). -/
def State.choose (s : State) : State := s.chooseWith fun s1 => s1.chooseWith id

/-- Entering IDLE, with the choice that follows at once (R81, R82). -/
def State.enterIdle (s : State) : State := (s.updTrunk fun t => { t with line := .idle }).choose

/-- An event wakes a Trunk Engine waiting in IDLE (R83). -/
def State.wake (s : State) : State := if s.trunk.line = .idle then s.choose else s

/-- An entry left the Candidate List: it wakes the Trunk Engine while an invitation is pending (R83, R141). -/
def State.wakeIfInvitePending (s : State) : State := if s.poll.invitePending then s.wake else s

/-! ### The end of an exchange (R73, R81) -/

/-- The turnaround guard starts; the line and the phase are GUARD (R73, R81). -/
def State.toGuard (s : State) : State :=
  s.releaseTarget.updTrunk fun t => { t with
    line := .guard
    frame := []
    receiving := false
    txTimer := none
    replyTimer := none
    guardTimer := some (t.config.guardTime * Config.bitTime t.config.divisor) }

/-- The line enters OFF: no exchange is current, no timer of the line runs, a stray frame in progress is dropped, and
fault due becomes no (R67, R79, R107). -/
def State.toOff (s : State) : State :=
  s.updTrunk fun t => { t with
    line := .off
    current := none
    frame := []
    receiving := false
    hunt := Hunt.start
    txTimer := none
    replyTimer := none
    guardTimer := none
    faultDue := false }

/-- A drain ends: it becomes none, and the draining channel's command completes with OK (R106, R109, R110). -/
def State.endDrain (s : State) (ended : Nat) : State :=
  match s.trunk.drain with
  | none => s
  | some d =>
    (s.updTrunk fun t => { t with drain := none }).complete d.channel .ok [wordOf d.takenIn.code, wordOf ended]

/-- The guard runs out (R81, R101, R109). -/
def State.guardRunsOut (s : State) : State :=
  match s.trunk.drain with
  | some _ => s.toOff.endDrain endedDrained
  | none =>
    let s1 := s.updTrunk fun t => { t with current := none, guardTimer := none }
    if s.trunk.faultDue then
      { s1.updTrunk fun t => { t with line := .fault, faultDue := false } with lineCause := true }
    else s1.enterIdle

/-! ### The fault run (R100) -/

/-- A miss steps the fault run, and at the threshold fault due becomes yes. -/
def State.faultMiss (s : State) : State :=
  s.updTrunk fun t =>
    let run := satInc 255 t.faultRun
    { t with faultRun := run, faultDue := t.faultDue || decide (t.health.faultThreshold ≤ run) }

/-- A valid reply, or a valid JOIN, sets the fault run to 0. -/
def State.faultClear (s : State) : State := s.updTrunk fun t => { t with faultRun := 0 }

/-! ### Acknowledgement (R91 to R93) -/

/-- What finishing the head message, acknowledged or abandoned, does to its record: the send sequence advances and head
attempts start again for the next message (R91, R92). -/
def Record.finishHead (r : Record) (b : BufNo) : Record :=
  { r with
    outq := r.outq.erase b
    sendSeq := r.sendSeq + 1
    headAttempts := if r.outq.erase b = [] then none else some 0 }

/-- The carried message is finished with: its buffer leaves the outbound queue for the free buffer list. -/
def State.finishMessage (s : State) (i : SlotNo) (b : BufNo) (why : Reason) : State :=
  match s.record i with
  | none => s
  | some r =>
    if b ∈ r.outq then ((s.setRecord i (some (r.finishHead b))).freeBuffer b).post i why else s

/-- An unsuccessful attempt (R92): head attempts and retransmissions step, and at the retry limit the message is
abandoned. -/
def State.countAttempt (s : State) (i : SlotNo) (b : BufNo) : State :=
  match s.record i with
  | none => s
  | some r =>
    if b ∈ r.outq then
      let attempts := r.headAttempts.getD 0 + 1
      let s1 := s.setRecord i (some { r with
        headAttempts := some attempts
        retransmissions := satInc 65535 r.retransmissions })
      if s.trunk.health.retryLimit ≤ attempts then s1.finishMessage i b .undelivered else s1
    else s

/-- A valid reply judged for acknowledgement of the carried message (R91 to R93). A POLL carries none. -/
def State.judgeAck (s : State) (i : SlotNo) (x : Exchange) (reply : Reply) : State :=
  match x.kind, x.outbound, x.sentNS with
  | .data, some b, some ns =>
    if reply.nr = ns + 1 then s.finishMessage i b .delivered
    else
      match reply.kind with
      | .hold _ => s
      | .idle | .data _ | .join _ | .leave => s.countAttempt i b
  | _, _, _ => s

/-! ### Inbound messages and holds (R94, R116 to R118) -/

/-- A reply's inbound message is delivered into the reserved buffer (R94). -/
def State.deliver (s : State) (i : SlotNo) (r : Record) (b : BufNo) (length : Nat) : State :=
  let s1 := s.setBuffer b { length := length, place := .delivered (s.handle i) r.address }
  let s2 := s1.setRecord i (some { r with recvSeq := r.recvSeq + 1 })
  s2.setPort r.owner { s2.port r.owner with deliveryQueue := (s2.port r.owner).deliveryQueue ++ [b] }

/-- A buffer that a delivery did not take returns to the tail of the free buffer list (R95). -/
def State.freeReserved (s : State) (x : Exchange) : State :=
  match x.reserved with
  | some b => s.freeBuffer b
  | none => s

/-- Inbound DATA judged on its N(S), with the reserved buffer going where the result sends it (R94, R95). -/
def State.judgeInbound (s : State) (i : SlotNo) (x : Exchange) (ns : BitVec 3) (length : Nat) : State :=
  match s.record i with
  | none => s.freeReserved x
  | some r =>
    if ns = r.recvSeq then
      match x.reserved with
      | some b => s.deliver i r b length
      | none => s
    else if ns = r.recvSeq - 1 then s.freeReserved x
    else (s.updCounters fun c => { c with unexpected := countUp c.unexpected }).freeReserved x

/-- A hold value applied to a record (R117, R118). -/
def State.applyHold (s : State) (i : SlotNo) (value : Nat) : State :=
  match s.record i with
  | none => s
  | some r =>
    if value = 0 then
      if r.hold.isSome then (s.setRecord i (some { r with hold := none })).post i .holdEnded else s
    else
      let s1 := s.setRecord i (some { r with hold := some (value * Config.quantum) })
      if r.hold.isSome then s1 else s1.post i .held

/-- Steps 4 and 5 of R89: the reply's kind is applied, and a reserved buffer not delivered is freed. -/
def State.applyKind (s : State) (i : SlotNo) (x : Exchange) (reply : Reply) : State :=
  match reply.kind with
  | .data length => s.judgeInbound i x reply.ns length
  | .hold value => (s.applyHold i value).freeReserved x
  | .idle | .join _ | .leave => s.freeReserved x

/-! ### Outcomes of POLL and DATA (R88 to R99) -/

/-- A SILENT record recovers (R17). -/
def State.recover (s : State) (i : SlotNo) : State :=
  (s.updRecord i fun r => { r with
    state := .active
    missCount := some 0
    failedProbes := none
    skip := some (match r.cls with
      | .fast => 0
      | .slow => s.poll.slowDivisor - 1) }).post i .recovered

/-- A valid reply to a POLL or DATA exchange whose target is ACTIVE, SILENT or SUSPENDED (R89). -/
def State.validReply (s : State) (i : SlotNo) (r : Record) (x : Exchange) (reply : Reply) : State :=
  let s1 := if r.state = .silent then s.recover i else s
  let s2 := s1.updRecord i fun r => { r with missCount := some 0, replies := satInc 65535 r.replies }
  let s3 := s2.judgeAck i x reply
  let s4 := (s3.applyKind i x reply).releaseTarget
  if reply.kind = .leave then s4.enterRetirement i .left false else s4

/-- A miss counted for the record's state (R97, R16). -/
def State.countMiss (s : State) (i : SlotNo) : State :=
  match s.record i with
  | none => s
  | some r =>
    let misses := satInc 15 (r.missCount.getD 0)
    match r.state with
    | .active =>
      if s.trunk.health.silenceThreshold ≤ misses then
        (s.setRecord i (some { r with
          state := .silent, missCount := some misses, skip := some 7, failedProbes := some 0 })).post i .silent
      else s.setRecord i (some { r with missCount := some misses })
    | .silent =>
      s.setRecord i (some { r with missCount := some misses, failedProbes := some (satInc 255 (r.failedProbes.getD 0)) })
    | .suspended => s.setRecord i (some { r with missCount := some misses })
    | .admitting | .retiring | .retired => s

/-- After a miss: a SILENT record whose failed probes are at a non-zero lost limit, counting this one (R97). -/
def State.isLost (s : State) (before : Record) (i : SlotNo) : Bool :=
  match s.record i with
  | none => false
  | some r => decide (before.state = .silent ∧ s.trunk.health.lostLimit ≠ 0
      ∧ s.trunk.health.lostLimit ≤ r.failedProbes.getD 0)

/-- A miss in a POLL or DATA exchange whose target is ACTIVE, SILENT or SUSPENDED (R90). -/
def State.missed (s : State) (i : SlotNo) (r : Record) (x : Exchange) : State :=
  let s1 := match x.outbound with
    | some b => s.countAttempt i b
    | none => s
  let s2 := s1.countMiss i
  let s3 := (s2.freeReserved x).releaseTarget
  if s2.isLost r i then s3.enterRetirement i .lost false else s3

/-- The carried buffer of an exchange whose target is RETIRING is freed as undelivered (R21, R108). -/
def State.freeCarried (s : State) (i : SlotNo) (x : Exchange) : State :=
  match x.outbound, s.record i with
  | some b, some r =>
    if b ∈ r.outq then
      ((s.setRecord i (some { r with
        outq := r.outq.erase b
        headAttempts := if r.outq.erase b = [] then none else r.headAttempts })).freeBuffer b).post i .undelivered
    else s
  | _, _ => s

/-- A valid inbound DATA with neither the receive sequence nor one less: counted UNEXPECTED (R74, R94). -/
def Record.outOfSequence (r : Record) (reply : Option Reply) : Bool :=
  match reply with
  | some { kind := .data _, ns := ns, .. } => decide (ns ≠ r.recvSeq ∧ ns ≠ r.recvSeq - 1)
  | _ => false

/-- The outcome of an exchange whose target is RETIRING (R21, R22): not applied to the record; its buffers are freed,
the reserved one first, and the record is released. Its reply is counted as any other (R21, R74), an inbound DATA out of
sequence among them: the model's reading, since R94 judges N(S) for ACTIVE, SILENT and SUSPENDED (log entry 29). -/
def State.retiringOutcome (s : State) (i : SlotNo) (r : Record) (x : Exchange) (reply : Option Reply) : State :=
  let s1 := if r.outOfSequence reply then s.updCounters fun c => { c with unexpected := countUp c.unexpected } else s
  (((s1.freeReserved x).freeCarried i x).releaseTarget).settleRetiring i

/-- The outcome of a POLL or DATA exchange, by the target's state (R13, R88); none is a miss. -/
def State.pollDataOutcome (s : State) (i : SlotNo) (x : Exchange) (reply : Option Reply) : State :=
  match s.record i with
  | none => (s.freeReserved x).releaseTarget
  | some r =>
    match r.state with
    | .active | .silent | .suspended =>
      match reply with
      | some v => s.validReply i r x v
      | none => s.missed i r x
    | .retiring => s.retiringOutcome i r x reply
    | .admitting | .retired => (s.freeReserved x).releaseTarget

/-! ### The outcome of ADMIT (R14, R15, R85) -/

/-- An ADMITTING record is confirmed (R14). -/
def State.confirm (s : State) (i : SlotNo) : State :=
  ((((s.updRecord i fun r => { r with
    state := .active
    admitAttempts := none
    skip := some 0
    missCount := some 0
    sendSeq := 0
    recvSeq := 0
    replies := satInc 65535 r.replies }).removeAdmit i).appendRing i).post i .admitted).releaseTarget

/-- A failed ADMIT (R15). -/
def State.admitFailed (s : State) (i : SlotNo) (r : Record) : State :=
  let attempts := r.admitAttempts.getD 0 + 1
  let s1 := s.setRecord i (some { r with admitAttempts := some attempts })
  if attempts < 3 then ((s1.removeAdmit i).joinAdmit i).releaseTarget
  else s1.releaseTarget.enterRetirement i .admitFailed false

/-- The outcome of an ADMIT exchange (R85); none is a miss. -/
def State.admitOutcome (s : State) (i : SlotNo) (reply : Option Reply) : State :=
  match s.record i with
  | none => s.releaseTarget
  | some r =>
    match r.state with
    | .admitting =>
      match reply with
      | some _ => s.confirm i
      | none => s.admitFailed i r
    | .retiring => s.releaseTarget.settleRetiring i
    | .active | .silent | .suspended | .retired => s.releaseTarget

/-- The outcome of a POLL, DATA or ADMIT exchange: the fault run (R100), the target, and the guard (R81). -/
def State.outcome (s : State) (reply : Option Reply) : State :=
  match s.trunk.current with
  | some { target := some h, kind := kind, sentNS := ns, outbound := ob, reserved := rs } =>
    let x : Exchange := { kind := kind, target := some h, sentNS := ns, outbound := ob, reserved := rs }
    let s1 := if reply.isSome then s.faultClear else s.faultMiss
    (match kind with
      | .poll | .data => s1.pollDataOutcome h.slot x reply
      | .admitExchange => s1.admitOutcome h.slot reply
      | .invite | .dismiss => s1).toGuard
  | _ => s

/-- The sending in full of a DISMISS frame, or its cutting short (R10, R22, R62, R84). -/
def State.dismissOutcome (s : State) : State :=
  match s.trunk.current with
  | some { target := some h, .. } =>
    (((s.removeDismiss h.slot).updRecord h.slot fun r =>
      if r.state = .retiring then { r with dismissPending := some false } else r).releaseTarget.settleRetiring
        h.slot).toGuard
  | _ => s

/-! ### Receptions, and aborts (R62, R67, R70, R108) -/

/-- The payload of a DATA reply is written into the reserved buffer as it arrives (R70). -/
def State.takePayload (s : State) (payload : List Byte) : State :=
  match s.trunk.current with
  | some { reserved := some b, .. } => s.writeBuffer b payload
  | _ => s

/-- A reply in progress is dropped (R67, R108). The payload bytes that had arrived, if it is a DATA, stand in the reserved
buffer (R70); a reply of another kind, or one whose header was not complete, has written nothing (R161). Which bytes had
arrived is what came in on trunk data in (log entry 9). -/
def State.dropReception (s : State) : State :=
  match s.trunk.current with
  | some { reserved := some _, .. } =>
    if s.trunk.receiving then
      (s.takePayload (dataPayloadTaken (s.trunk.replyIn.headD []) true)).updTrunk fun t =>
        { t with replyIn := t.replyIn.tail }
    else s
  | _ => s

/-- An exchange in SENDING or AWAITING is ended by abort (R108): it applies no outcome; its buffers go where R108 sends
them, and its target is released. -/
def State.abortExchange (s : State) : State :=
  match s.trunk.current with
  | some { target := some h, kind := kind, sentNS := ns, outbound := ob, reserved := rs } =>
    let x : Exchange := { kind := kind, target := some h, sentNS := ns, outbound := ob, reserved := rs }
    let s1 := s.dropReception.freeReserved x
    match s.record h.slot with
    | some r =>
      if r.state = .retiring then ((s1.freeCarried h.slot x).releaseTarget).settleRetiring h.slot
      else s1.releaseTarget
    | none => s1.releaseTarget
  | _ => s

end Sys2Proof.Machine
end

