-- ==== Sys2Proof/Machine/Admission.lean ====
section
/-! DEFINITION. The Admission Unit (spec/06): lapses, the evaluation of a JOIN, filters, candidates, tickets, admission
attempts and retries, and the admission commands. -/

namespace Sys2Proof.Machine

/-- The state with its Admission Unit changed. -/
def State.updAdm (s : State) (f : Admission → Admission) : State := { s with adm := f s.adm }

/-! ### Admission attempts (R144 to R146) -/

/-- The lowest address of the allocation range that the Address Index does not hold (R145). -/
def State.allocateAddress (s : State) : Option Byte :=
  ((List.range' s.adm.lower (s.adm.upper + 1 - s.adm.lower)).find? fun a =>
    (s.lookup (BitVec.ofNat 8 a)).isNone).map (BitVec.ofNat 8)

/-- A candidate of an identity leaves the Candidate List, the others keeping their order (R141). -/
def State.removeCandidate (s : State) (identity : List Byte) : State :=
  s.updAdm fun a => { a with candidates := a.candidates.filter fun c => c.identity ≠ identity }

/-- Whether the Candidate List holds an identity. -/
def State.candidateKnown (s : State) (identity : List Byte) : Bool :=
  s.adm.candidates.any fun c => c.identity == identity

/-- An admission with a given address: an ADMITTING record at the tail of the Admit Queue, and a candidate of the
identity removed (R144 step 4). None for want of a slot. -/
def State.admitAt (s : State) (identity : List Byte) (cls : Class) (owner : Channel) (address : Byte) :
    Option (SlotNo × State) :=
  match s.createRecord (Record.fresh .admitting address identity cls owner) with
  | none => none
  | some (i, s1) => some (i, (s1.joinAdmit i).removeCandidate identity)

/-- An admission attempt with the allocator's address (R144). None when it fails; nothing has then changed. -/
def State.attempt (s : State) (identity : List Byte) (cls : Class) (owner : Channel) : Option State :=
  match s.allocateAddress with
  | none => none
  | some a => (s.admitAt identity cls owner a).map Prod.snd

/-- The DEFERRED candidates are tried in list order until an attempt fails (R146), with the number admitted. -/
def State.retryAmong (s : State) : List Candidate → State × Nat
  | [] => (s, 0)
  | c :: cs =>
    match c.disposition with
    | .undecided => State.retryAmong s cs
    | .deferred cls owner =>
      match s.attempt c.identity cls owner with
      | none => (s, 0)
      | some s1 =>
        let v := State.retryAmong s1 cs
        (v.1, v.2 + 1)

/-- The retries of R146. -/
def State.retryDeferred (s : State) : State × Nat := s.retryAmong s.adm.candidates

/-! ### Candidates and tickets (R141, R142) -/

/-- The first ticket value from a start, wrapping, that no entry holds. Of nine values one is free, since the list
holds at most 8 entries (R142). -/
def freeTicket (used : List Byte) (start : Byte) : Nat → Byte
  | 0 => start
  | n + 1 => if start ∈ used then freeTicket used (start + 1) n else start

/-- A candidate is added at the tail with a new ticket; on a full list the JOIN is discarded and CANDIDATE OVERFLOW
counts (R137, R140, R141, R142). -/
def State.addCandidate (s : State) (identity : List Byte) (disposition : Disposition) : State :=
  if s.adm.candidates.length < 8 then
    let t := freeTicket (s.adm.candidates.map Candidate.ticket) s.adm.ticket 8
    s.updAdm fun a => { a with
      candidates := a.candidates ++ [{ ticket := t, identity := identity, disposition := disposition, lapse := 0 }]
      ticket := t + 1 }
  else s.updCounters fun c => { c with candidateOverflow := countUp c.candidateOverflow }

/-! ### Filters (R138 to R140) -/

/-- A position below the minimum length either is not compared or holds the pattern byte (R139). -/
def Filter.positionMatches (f : Filter) (identity : List Byte) (n : Fin 16) : Bool :=
  !(decide (n.val < f.minLength) && f.compare.getLsbD n.val) || identity[n.val]? == some f.pattern[n]

/-- An identity matches a filter (R139). -/
def Filter.matchesId (f : Filter) (identity : List Byte) : Bool :=
  decide (f.minLength ≤ identity.length) && (List.finRange 16).all fun n => f.positionMatches identity n

/-- The first enabled filter, in index order, that an identity matches (R140). -/
def State.decidingFilter (s : State) (identity : List Byte) : Option Filter :=
  s.adm.filters.toList.find? fun f => f.enabled && f.matchesId identity

/-- An attempt that, for want of a slot or an address, leaves a DEFERRED candidate instead (R137 step 4, R140). -/
def State.attemptOrDefer (s : State) (identity : List Byte) (cls : Class) (owner : Channel) : State :=
  match s.attempt identity cls owner with
  | some s1 => s1
  | none => s.addCandidate identity (.deferred cls owner)

/-- The Filter Table decides a JOIN (R140). -/
def State.filterJoin (s : State) (identity : List Byte) : State :=
  match s.decidingFilter identity with
  | some f =>
    match f.action with
    | .admitIt => s.attemptOrDefer identity f.cls f.owner
    | .refuse => s.updCounters fun c => { c with refusedJoin := countUp c.refusedJoin }
  | none => s.addCandidate identity .undecided

/-! ### The outcome of an invitation (R132 to R137) -/

/-- A candidate at a counted invitation, by R132 step 2 in its order: the lapse steps unless the candidate is heard; at or
above the lapse limit the candidate is removed; and the lapse of a heard one becomes 0. A heard candidate that stood at
or above a lowered limit is therefore removed (R133). -/
def Candidate.lapseStep (limit : Nat) (heard : Option (List Byte)) (c : Candidate) : Option Candidate :=
  let isHeard := heard = some c.identity
  let lapse := if isHeard then c.lapse else c.lapse + 1
  if limit ≤ lapse then none else some { c with lapse := if isHeard then 0 else lapse }

/-- The lapse step of a counted invitation (R132 steps 1 and 2). -/
def State.stepLapses (s : State) (heard : Option (List Byte)) : State :=
  s.updAdm fun a => { a with candidates := a.candidates.filterMap (Candidate.lapseStep a.lapseLimit heard) }

/-- A rejoin (R137): the old record retires with cause REJOINED, then an admission is attempted with its class and
owner. -/
def State.rejoin (s : State) (i : SlotNo) (r : Record) (identity : List Byte) : State :=
  (s.enterRetirement i .rejoined false).attemptOrDefer identity r.cls r.owner

/-- The evaluation of a valid JOIN (R134 to R137). -/
def State.evaluateJoin (s : State) (identity : List Byte) : State :=
  match s.adm.candidates.find? fun c => c.identity == identity with
  | some c =>
    match c.disposition with
    | .undecided => s
    | .deferred cls owner =>
      match s.attempt identity cls owner with
      | some s1 => s1
      | none => s
  | none =>
    match s.findIdentity identity with
    | some i =>
      match s.record i with
      | some r => if r.state.isMember then s.rejoin i r identity else s
      | none => s
    | none => s.filterJoin identity

/-- The join window ends (R66, R86, R132): the lapses step, a valid JOIN clears the fault run and is evaluated, and the
guard starts. -/
def State.endInvitation (s : State) (join : Option (List Byte)) : State :=
  match join with
  | some identity => ((s.faultClear.stepLapses (some identity)).evaluateJoin identity).toGuard
  | none => (s.stepLapses none).toGuard

/-! ### The admission commands (R148 to R153) -/

/-- The results of SET ADMISSION (R148, R199). -/
def State.admissionWords (s : State) : List Word :=
  [wordOf s.adm.interval, wordOf s.adm.width, wordOf s.adm.lapseLimit, wordOf s.adm.lower, wordOf s.adm.upper,
   wordOf (bitsAt s.adm.ticket.toNat 8 0 + bitsAt s.adm.candidates.length 4 8 + bitsAt s.adm.nextPartition 3 12)]

/-- The five admission settings written, with their effects on the countdown, a pending invitation and the next
partition number (R51, R131, R148). -/
def State.writeAdmission (s : State) (interval width lapse lower upper : Nat) : State :=
  let s1 := s.updAdm fun a => { a with
    nextPartition := if width = a.width then a.nextPartition else 0
    interval := interval
    width := width
    lapseLimit := lapse
    lower := lower
    upper := upper }
  s1.updPoll fun p => { p with
    countdown := interval
    invitePending := p.invitePending && decide (interval ≠ 0) }

/-- The argument check of SET ADMISSION (R148). -/
def State.admissionArgsOk (s : State) (ch : Channel) : Bool :=
  inRange (s.arg ch 0) 0 255 && inRange (s.arg ch 1) 0 3 && inRange (s.arg ch 2) 1 255
    && inRange (s.arg ch 3) 1 254 && inRange (s.arg ch 4) 1 254
    && decide ((s.arg ch 3).toNat ≤ (s.arg ch 4).toNat)

/-- SET ADMISSION as taken (R148). -/
def bodySetAdmission (ch : Channel) (s : State) : State :=
  onChannel0 ch s <|
    if s.option1 ch then s.complete ch .ok s.admissionWords
    else if s.admissionArgsOk ch then
      let s1 := s.writeAdmission (s.arg ch 0).toNat (s.arg ch 1).toNat (s.arg ch 2).toNat (s.arg ch 3).toNat
        (s.arg ch 4).toNat
      let v := s1.retryDeferred
      let s2 := if v.2 = 0 then v.1 else v.1.wake
      s2.complete ch .ok v.1.admissionWords
    else s.fail ch .badArgument

/-- SET_ADMISSION (R51, R148). -/
def execSetAdmission (ch : Channel) (opts : Byte) (s : State) : Host.Outcome State Fault Refusal :=
  command 0x50 bodySetAdmission ch opts s

/-- The pattern a filter stores: the bytes below the minimum length, 0 beyond (R138, R149). -/
def patternOf (bytes : List Byte) (minLength : Nat) : Vector Byte 16 :=
  Vector.ofFn fun n => if n.val < minLength then bytes.getD n.val 0 else 0

/-- The filter WRITE FILTER's arguments give, but for its pattern; none when one is outside its range (R149). The
enabled flag is coded 0 or 1 (log entry 13). -/
def State.filterArgs (s : State) (ch : Channel) : Option (Fin 8 × Filter) :=
  let w2 := s.arg ch 1
  if h : (s.arg ch 0).toNat < 8 then
    match yesNoOf (loByte w2).toNat, actionOf (hiByte w2).toNat, classOwnerOf (s.arg ch 2) with
    | some enabled, some action, some (cls, owner) =>
      if (s.arg ch 3).toNat ≤ 16 then
        some (⟨(s.arg ch 0).toNat, h⟩,
          { enabled := enabled, action := action, cls := cls, owner := owner
            minLength := (s.arg ch 3).toNat, compare := s.arg ch 4, pattern := Vector.replicate 16 0 })
      else none
    | _, _, _ => none
  else none

/-- The state with a filter replaced. -/
def State.setFilter (s : State) (n : Fin 8) (f : Filter) : State :=
  s.updAdm fun a => { a with filters := a.filters.set n f }

/-- WRITE FILTER as taken (R149, R172). -/
def bodyWriteFilter (ch : Channel) (s : State) : State :=
  onChannel0 ch s <|
    match s.filterArgs ch with
    | none => s.fail ch .badArgument
    | some (n, f) =>
      if f.minLength = 0 then (s.setFilter n f).complete ch .ok []
      else
        match bufOf (s.arg ch 5) with
        | none => s.fail ch .badArgument
        | some b =>
          if s.isHeld ch b then
            (s.setFilter n { f with pattern := patternOf (s.bufferBytes b f.minLength) f.minLength }).complete ch .ok []
          else s.fail ch .notHeld

/-- WRITE_FILTER (R149). -/
def execWriteFilter (ch : Channel) (opts : Byte) (s : State) : Host.Outcome State Fault Refusal :=
  command 0x51 bodyWriteFilter ch opts s

/-- A filter's results (R150, R199). -/
def filterWords (n : Fin 8) (f : Filter) : List Word :=
  [wordOf n.val, wordOf2 (yesNo f.enabled) f.action.code, wordOf2 f.cls.code (channelCode f.owner),
   wordOf f.minLength, f.compare]

/-- READ FILTER as taken (R150, R173). -/
def bodyReadFilter (ch : Channel) (s : State) : State :=
  onChannel0 ch s <|
    if h : (s.arg ch 0).toNat < 8 then
      match bufOf (s.arg ch 1) with
      | none => s.fail ch .badArgument
      | some b =>
        let n : Fin 8 := ⟨(s.arg ch 0).toNat, h⟩
        let f := s.adm.filters[n]
        if f.minLength = 0 then s.complete ch .ok (filterWords n f)
        else if s.isHeld ch b then
          (s.stageOut b (f.pattern.toList.take f.minLength)).complete ch .ok (filterWords n f)
        else s.fail ch .notHeld
    else s.fail ch .badArgument

/-- READ_FILTER (R150). -/
def execReadFilter (ch : Channel) (opts : Byte) (s : State) : Host.Outcome State Fault Refusal :=
  command 0x52 bodyReadFilter ch opts s

/-- The class and owner of an entry as results: NONE, coded 3, for an UNDECIDED one (R151, R199). -/
def dispositionWord : Disposition → Word
  | .undecided => wordOf2 3 3
  | .deferred cls owner => wordOf2 cls.code (channelCode owner)

/-- READ CANDIDATE as taken (R151, R173). -/
def bodyReadCandidate (ch : Channel) (s : State) : State :=
  onChannel0 ch s <|
    if (s.arg ch 0).toNat < 8 then
      match bufOf (s.arg ch 1) with
      | none => s.fail ch .badArgument
      | some b =>
        if s.isHeld ch b then
          match s.adm.candidates[(s.arg ch 0).toNat]? with
          | none => s.fail ch .notFound
          | some c =>
            (s.stageOut b c.identity).complete ch .ok
              [wordOf c.ticket.toNat, wordOf c.disposition.code, wordOf c.lapse, wordOf c.identity.length,
               dispositionWord c.disposition, wordOf s.adm.candidates.length]
        else s.fail ch .notHeld
    else s.fail ch .badArgument

/-- READ_CANDIDATE (R151). -/
def execReadCandidate (ch : Channel) (opts : Byte) (s : State) : Host.Outcome State Fault Refusal :=
  command 0x53 bodyReadCandidate ch opts s

/-- The entry of the Candidate List that holds a ticket. -/
def State.ticketHolder (s : State) (ticket : Nat) : Option Candidate :=
  s.adm.candidates.find? fun c => c.ticket.toNat == ticket

/-- The address APPROVE gives, or why it can give none (R152 checks 3 and 4). -/
def State.approveAddress (s : State) (address : Nat) : Except ResultCode Byte :=
  if address = 0 then
    match s.allocateAddress with
    | some a => .ok a
    | none => .error .noAddress
  else if (s.lookup (BitVec.ofNat 8 address)).isSome then .error .addressInUse
  else .ok (BitVec.ofNat 8 address)

/-- APPROVE of a candidate whose arguments stand (R152). -/
def State.approve (s : State) (ch : Channel) (c : Candidate) (cls : Class) (owner : Channel) (address : Nat) : State :=
  if s.registry.freeSlots = [] then s.fail ch .noSlot
  else
    match s.approveAddress address with
    | .error code => s.fail ch code
    | .ok a =>
      match s.admitAt c.identity cls owner a with
      | none => s.fail ch .noSlot
      | some (i, s1) => s1.wake.complete ch .ok [handleWord (s1.handle i), wordOf a.toNat]

/-- APPROVE as taken (R152). -/
def bodyApprove (ch : Channel) (s : State) : State :=
  onChannel0 ch s <|
    match classOwnerOf (s.arg ch 1) with
    | none => s.fail ch .badArgument
    | some (cls, owner) =>
      if inRange (s.arg ch 0) 0 255 && inRange (s.arg ch 2) 0 254 then
        match s.ticketHolder (s.arg ch 0).toNat with
        | none => s.fail ch .notFound
        | some c => s.approve ch c cls owner (s.arg ch 2).toNat
      else s.fail ch .badArgument

/-- APPROVE (R152). -/
def execApprove (ch : Channel) (opts : Byte) (s : State) : Host.Outcome State Fault Refusal :=
  command 0x54 bodyApprove ch opts s

/-- REJECT as taken (R153). -/
def bodyReject (ch : Channel) (s : State) : State :=
  onChannel0 ch s <|
    if inRange (s.arg ch 0) 0 255 then
      match s.ticketHolder (s.arg ch 0).toNat with
      | none => s.fail ch .notFound
      | some c =>
        let s1 := s.updAdm fun a => { a with candidates := a.candidates.filter fun d => d.ticket ≠ c.ticket }
        s1.wakeIfInvitePending.complete ch .ok [wordOf c.disposition.code]
    else s.fail ch .badArgument

/-- REJECT (R153). -/
def execReject (ch : Channel) (opts : Byte) (s : State) : Host.Outcome State Fault Refusal :=
  command 0x55 bodyReject ch opts s

end Sys2Proof.Machine
end

