-- ==== Sys2Proof/Machine/BufferCommands.lean ====
section
/-! DEFINITION. The buffer commands (spec/07 7.5) and TAKE CHANGE (spec/08 8.3). -/

namespace Sys2Proof.Machine

/-- ALLOCATE as taken (R162). -/
def bodyAllocate (ch : Channel) (s : State) : State :=
  if s.pool.free.length ≤ s.pool.reserveFloor then s.fail ch .noBuffer
  else
    match s.pool.free with
    | [] => s.fail ch .noBuffer
    | b :: rest =>
      ({ s with pool := { s.pool with free := rest } }.setPlace b (.held ch)).complete ch .ok
        [wordOf b.val, wordOf rest.length]

/-- ALLOCATE (R162). -/
def execAllocate (ch : Channel) (opts : Byte) (s : State) : Host.Outcome State Fault Refusal :=
  command 0x60 bodyAllocate ch opts s

/-- RELEASE as taken (R163). -/
def bodyRelease (ch : Channel) (s : State) : State :=
  match bufOf (s.arg ch 0) with
  | none => s.fail ch .badArgument
  | some b =>
    if s.isHeld ch b then
      let s1 := s.freeBuffer b
      s1.complete ch .ok [wordOf s1.pool.free.length]
    else s.fail ch .notHeld

/-- RELEASE (R163). -/
def execRelease (ch : Channel) (opts : Byte) (s : State) : Host.Outcome State Fault Refusal :=
  command 0x61 bodyRelease ch opts s

/-- A message joins the tail of a record's outbound queue; into an empty queue it brings head attempts 0 (R159, R164). -/
def Record.enqueue (r : Record) (b : BufNo) : Record :=
  { r with
    outq := r.outq ++ [b]
    headAttempts := if r.outq = [] then some 0 else r.headAttempts }

/-- SEND as taken (R164). -/
def bodySend (ch : Channel) (s : State) : State :=
  withRecord ch s true ((bufOf (s.arg ch 1)).isSome && inRange (s.arg ch 2) 0 120) fun i r =>
    match bufOf (s.arg ch 1) with
    | none => s.fail ch .badArgument
    | some b =>
      if !s.isHeld ch b then s.fail ch .notHeld
      else if !r.state.isMember then s.fail ch .wrongState
      else if 4 ≤ r.outq.length then s.fail ch .queueFull
      else
        ((s.setBuffer b { length := (s.arg ch 2).toNat, place := .queued i }).setRecord i (some (r.enqueue b))).complete
          ch .ok [wordOf (r.outq.length + 1)]

/-- SEND (R164). -/
def execSend (ch : Channel) (opts : Byte) (s : State) : Host.Outcome State Fault Refusal :=
  command 0x62 bodySend ch opts s

/-- The source a delivered buffer carries (R156, R160). -/
def sourceWords : Place → Word × Word
  | .delivered h a => (handleWord h, wordOf a.toNat)
  | .free | .held _ | .queued _ | .reserved => (0, 0)

/-- TAKE MESSAGE as taken (R166). -/
def bodyTakeMessage (ch : Channel) (s : State) : State :=
  match (s.port ch).deliveryQueue with
  | [] => s.fail ch .empty
  | b :: rest =>
    let src := sourceWords (s.buffer b).place
    let s1 := s.setPort ch { s.port ch with deliveryQueue := rest }
    (s1.setPlace b (.held ch)).complete ch .ok
      [wordOf b.val, wordOf (s.buffer b).length, src.1, src.2, wordOf rest.length]

/-- TAKE_MESSAGE (R166). -/
def execTakeMessage (ch : Channel) (opts : Byte) (s : State) : Host.Outcome State Fault Refusal :=
  command 0x63 bodyTakeMessage ch opts s

/-- How many buffers are in a place of a kind. -/
def State.countPlaces (s : State) (p : Place → Bool) : Nat := s.pool.buffers.toList.countP fun x => p x.place

def Place.isQueued : Place → Bool
  | .queued _ => true
  | .free | .held _ | .reserved | .delivered _ _ => false

/-- The results of SET RESERVE (R167, R199). -/
def State.reserveWords (s : State) : List Word :=
  [wordOf s.pool.reserveFloor, wordOf s.pool.free.length,
   wordOf2 (s.countPlaces fun p => p == .held .ch0) (s.countPlaces fun p => p == .held .ch1),
   wordOf (s.countPlaces Place.isQueued), wordOf (s.countPlaces fun p => p == .reserved),
   wordOf2 s.port0.deliveryQueue.length s.port1.deliveryQueue.length]

/-- SET RESERVE as taken (R167). -/
def bodySetReserve (ch : Channel) (s : State) : State :=
  onChannel0 ch s <|
    if s.option1 ch then s.complete ch .ok s.reserveWords
    else if inRange (s.arg ch 0) 0 8 then
      let s1 := { s with pool := { s.pool with reserveFloor := (s.arg ch 0).toNat } }
      s1.complete ch .ok s1.reserveWords
    else s.fail ch .badArgument

/-- SET_RESERVE (R158, R167). -/
def execSetReserve (ch : Channel) (opts : Byte) (s : State) : Host.Outcome State Fault Refusal :=
  command 0x64 bodySetReserve ch opts s

/-- A RETIRED record becomes FREE: its slot joins the tail of the Free Slot List, its generation kept (R24, R181). -/
def State.freeSlot (s : State) (i : SlotNo) : State :=
  let s1 := s.setRecord i none
  { s1 with registry := { s1.registry with freeSlots := s1.registry.freeSlots ++ [i] } }

/-- An entry's results (R180, R199). -/
def changeWords (h : Handle) (r : Record) (left admitted : Nat) : List Word :=
  [handleWord h, r.reasons.setWidth 16, wordOf2 r.delivered r.undelivered,
   wordOf2 r.state.code (causeCode (match r.state with
     | .retiring | .retired => r.retireCause
     | .admitting | .active | .silent | .suspended => none)), wordOf left, wordOf admitted]

/-- TAKE CHANGE of an entry (R180, R181): the set and counts are cleared; a RETIRED record becomes FREE and the DEFERRED
candidates are retried, which may wake the Trunk Engine. -/
def State.takeEntry (s : State) (ch : Channel) (i : SlotNo) (rest : List SlotNo) : State :=
  let s1 := s.setPort ch { s.port ch with changeList := rest }
  match s1.record i with
  | none => s1.fail ch .empty
  | some r =>
    if r.state = .retired then
      let v := (s1.freeSlot i).retryDeferred
      let s2 := if v.2 = 0 then v.1 else v.1.wake
      s2.complete ch .ok (changeWords (s.handle i) r rest.length v.2)
    else
      (s1.setRecord i (some { r with reasons := 0, delivered := 0, undelivered := 0 })).complete ch .ok
        (changeWords (s.handle i) r rest.length 0)

/-- TAKE CHANGE as taken (R180). -/
def bodyTakeChange (ch : Channel) (s : State) : State :=
  match (s.port ch).changeList with
  | [] => s.fail ch .empty
  | i :: rest => s.takeEntry ch i rest

/-- TAKE_CHANGE (R180, R181). -/
def execTakeChange (ch : Channel) (opts : Byte) (s : State) : Host.Outcome State Fault Refusal :=
  command 0x70 bodyTakeChange ch opts s

end Sys2Proof.Machine
end

