-- ==== Sys2Proof/Machine/LineCommands.lean ====
section
/-! DEFINITION. The commands on the line, its health and holds: CONFIGURE LINE, READ LINE STATUS, START LINE, STOP LINE,
SET HEALTH (spec/03, spec/04) and CLEAR HOLD (spec/05). -/

namespace Sys2Proof.Machine

/-- The line is stopped: OFF or FAULT (R79). -/
def LineState.stopped : LineState → Bool
  | .off | .fault => true
  | .idle | .sending | .awaiting | .guard => false

/-- The five settings as results (R76). -/
def configWords (c : LineConfig) : List Word :=
  [wordOf c.divisor, wordOf c.clock.code, wordOf c.replyTimeout, wordOf c.joinWindow, wordOf c.guardTime]

/-- The line configuration the arguments give; none when one is outside its range (R75, R76). -/
def State.configArgs (s : State) (ch : Channel) : Option LineConfig :=
  match clockOf (s.arg ch 1).toNat with
  | none => none
  | some clock =>
    if inRange (s.arg ch 0) 2 4095 && inRange (s.arg ch 2) 1 255 && inRange (s.arg ch 3) 1 255
        && inRange (s.arg ch 4) 8 255 then
      some { divisor := (s.arg ch 0).toNat, clock := clock, replyTimeout := (s.arg ch 2).toNat
             joinWindow := (s.arg ch 3).toNat, guardTime := (s.arg ch 4).toNat }
    else none

/-- CONFIGURE LINE as taken (R76). -/
def bodyConfigureLine (ch : Channel) (s : State) : State :=
  onChannel0 ch s <|
    if s.option1 ch then s.complete ch .ok (configWords s.trunk.config)
    else
      match s.configArgs ch with
      | none => s.fail ch .badArgument
      | some c =>
        if s.trunk.line.stopped then (s.updTrunk fun t => { t with config := c }).complete ch .ok (configWords c)
        else s.fail ch .lineActive

/-- CONFIGURE_LINE (R75, R76). -/
def execConfigureLine (ch : Channel) (opts : Byte) (s : State) : Host.Outcome State Fault Refusal :=
  command 0x30 bodyConfigureLine ch opts s

/-- The four counters of a page (R77). -/
def pageWords (c : Counters) (page : Nat) : List Word :=
  if page = 0 then [wordOf c.check, wordOf c.format, wordOf c.stray, wordOf c.unexpected]
  else [wordOf c.timeout, wordOf c.joinCollision, wordOf c.refusedJoin, wordOf c.candidateOverflow]

/-- The counters with one page set to 0 (R77). -/
def Counters.clearPage (c : Counters) (page : Nat) : Counters :=
  if page = 0 then { c with check := 0, format := 0, stray := 0, unexpected := 0 }
  else { c with timeout := 0, joinCollision := 0, refusedJoin := 0, candidateOverflow := 0 }

/-- READ LINE STATUS as taken (R77, R193). -/
def bodyReadLineStatus (ch : Channel) (s : State) : State :=
  let clear := s.option2 ch
  let page := (s.arg ch 0).toNat
  if ch = .ch1 ∧ clear = true then s.fail ch .notPermitted
  else if 1 < page then s.fail ch .badArgument
  else
    let words := wordOf2 s.trunk.line.code s.trunk.faultRun :: pageWords s.trunk.counters page
    (if clear then s.updCounters fun c => c.clearPage page else s).complete ch .ok words

/-- READ_LINE_STATUS (R77). -/
def execReadLineStatus (ch : Channel) (opts : Byte) (s : State) : Host.Outcome State Fault Refusal :=
  command 0x31 bodyReadLineStatus ch opts s

/-- START LINE as taken (R105): the completion follows the choice. -/
def bodyStartLine (ch : Channel) (s : State) : State :=
  onChannel0 ch s <|
    if s.trunk.line.stopped then
      ((s.updTrunk fun t => { t with faultRun := 0, faultDue := false }).enterIdle).complete ch .ok []
    else s.fail ch .lineActive

/-- START_LINE (R105). -/
def execStartLine (ch : Channel) (opts : Byte) (s : State) : Host.Outcome State Fault Refusal :=
  command 0x32 bodyStartLine ch opts s

/-- The results of STOP LINE (R106). -/
def stopWords (takenIn : LineState) (ended : Nat) : List Word := [wordOf takenIn.code, wordOf ended]

/-- STOP LINE with ABORT, by the line state it is taken in (R107, R108, R110). -/
def State.stopAbort (s : State) (ch : Channel) : State :=
  let was := s.trunk.line
  match was with
  | .off => s.complete ch .ok (stopWords was endedNone)
  | .idle | .fault => s.toOff.complete ch .ok (stopWords was endedNone)
  | .sending | .awaiting =>
    (s.abortExchange.toOff.endDrain endedAborted).complete ch .ok (stopWords was endedAborted)
  | .guard => (s.toOff.endDrain endedDrained).complete ch .ok (stopWords was endedNone)

/-- STOP LINE with DRAIN, with no drain in progress (R107, R109). In SENDING and AWAITING the channel stays EXECUTING. -/
def State.stopDrain (s : State) (ch : Channel) : State :=
  let was := s.trunk.line
  match was with
  | .off => s.complete ch .ok (stopWords was endedNone)
  | .idle | .fault | .guard => s.toOff.complete ch .ok (stopWords was endedNone)
  | .sending | .awaiting => s.updTrunk fun t => { t with drain := some { channel := ch, takenIn := was } }

/-- STOP LINE as taken (R106, R193 check 3). -/
def bodyStopLine (ch : Channel) (s : State) : State :=
  match s.option1 ch, s.option2 ch with
  | true, false => s.stopAbort ch
  | false, true => if s.trunk.drain.isSome then s.fail ch .wrongState else s.stopDrain ch
  | true, true => s.fail ch .badArgument
  | false, false => s.fail ch .badArgument

/-- STOP_LINE (R106, R107). -/
def execStopLine (ch : Channel) (opts : Byte) (s : State) : Host.Outcome State Fault Refusal :=
  command 0x33 bodyStopLine ch opts s

/-- The four settings as results (R111). -/
def healthWords (h : Health) : List Word :=
  [wordOf h.silenceThreshold, wordOf h.lostLimit, wordOf h.retryLimit, wordOf h.faultThreshold]

/-- SET HEALTH as taken (R111). -/
def bodySetHealth (ch : Channel) (s : State) : State :=
  onChannel0 ch s <|
    if s.option1 ch then s.complete ch .ok (healthWords s.trunk.health)
    else if inRange (s.arg ch 0) 1 15 && inRange (s.arg ch 1) 0 255 && inRange (s.arg ch 2) 1 15
        && inRange (s.arg ch 3) 1 255 then
      let h : Health :=
        { silenceThreshold := (s.arg ch 0).toNat, lostLimit := (s.arg ch 1).toNat
          retryLimit := (s.arg ch 2).toNat, faultThreshold := (s.arg ch 3).toNat }
      (s.updTrunk fun t => { t with health := h }).complete ch .ok (healthWords h)
    else s.fail ch .badArgument

/-- SET_HEALTH (R111, R112). -/
def execSetHealth (ch : Channel) (opts : Byte) (s : State) : Host.Outcome State Fault Refusal :=
  command 0x34 bodySetHealth ch opts s

/-- A present hold ends, and HOLD_ENDED is posted (R122, R128). -/
def State.endHold (s : State) (i : SlotNo) : State :=
  (s.updRecord i fun r => { r with hold := none }).post i .holdEnded

/-- CLEAR HOLD as taken (R128). -/
def bodyClearHold (ch : Channel) (s : State) : State :=
  withRecord ch s true true fun i r =>
    match r.state with
    | .active | .silent | .suspended =>
      let words := [wordOf (yesNo r.hold.isSome), wordOf (holdReading r.hold)]
      (if r.hold.isSome then s.endHold i else s).complete ch .ok words
    | .admitting | .retiring | .retired => s.fail ch .wrongState

/-- CLEAR_HOLD (R128). -/
def execClearHold (ch : Channel) (opts : Byte) (s : State) : Host.Outcome State Fault Refusal :=
  command 0x40 bodyClearHold ch opts s

end Sys2Proof.Machine
end

