-- ==== Sys2Proof/Machine/LineEvents.lean ====
section
/-! DEFINITION. The events of the trunk line and of the timers (spec/03 to spec/06), the passing of time, and the two
resets (R196, R198). An event that cannot happen in the state it finds leaves the state as it is (log entry 3). -/

namespace Sys2Proof.Machine

/-- The kind of the Current Exchange. -/
def State.exchangeKind (s : State) : Option ExchangeKind := s.trunk.current.map fun x => x.kind

/-- The line is in a state, with an exchange of one of some kinds current. -/
def State.inPhase (s : State) (line : LineState) (kinds : List ExchangeKind) : Bool :=
  decide (s.trunk.line = line) && (match s.exchangeKind with
    | some k => decide (k ∈ kinds)
    | none => false)

/-- The kinds with a reply window of the reply timeout (R63). -/
def replyKinds : List ExchangeKind := [.poll, .data, .admitExchange]

/-- A reply can begin, or has begun: a reception is in progress, or the timer has not expired (R63, R66). -/
def State.windowOpen (s : State) : Bool :=
  s.trunk.receiving || (match s.trunk.replyTimer with
    | some (_ + 1) => true
    | _ => false)

/-! ### Frames sent (R61, R63, R84) -/

/-- How long the window of an exchange stays open: the join window after INVITE, else the reply timeout (R63). -/
def windowTime (c : LineConfig) : ExchangeKind → Nat
  | .invite => c.joinWindow * Config.unit100us
  | .poll | .data | .admitExchange | .dismiss => c.replyTimeout * Config.unit100us

/-- A frame has been sent in full and its window opens (R63). -/
def State.openWindow (s : State) : State :=
  match s.exchangeKind with
  | none => s
  | some k => s.updTrunk fun t => { t with
      line := .awaiting
      frame := []
      receiving := false
      txTimer := none
      replyTimer := some (windowTime t.config k) }

/-- FRAME_SENT (R61, R63). -/
def execFrameSent (s : State) : Host.Outcome State Fault Refusal :=
  unlessReset (fun s => if s.inPhase .sending [.poll, .data, .admitExchange, .invite] then s.openWindow else s) s

/-- DISMISS_SENT (R84). -/
def execDismissSent (s : State) : Host.Outcome State Fault Refusal :=
  unlessReset (fun s => if s.inPhase .sending [.dismiss] then s.dismissOutcome else s) s

/-! ### Reply windows (R63 to R70) -/

/-- The address test of a POLL, DATA or ADMIT exchange: the Address Index maps the address to the target (R65). -/
def State.expectedAddress (s : State) (a : Byte) : Bool :=
  match s.trunk.current with
  | some { target := some h, .. } => decide (s.lookup a = some h.slot)
  | _ => false

/-- When the verdict is a valid DATA, the reserved buffer's length becomes the payload length (R70). -/
def State.takeLength (s : State) (reply : Reply) : State :=
  match s.trunk.current, reply.kind with
  | some { reserved := some b, .. }, .data n => s.setBuffer b { s.buffer b with length := n }
  | _, _ => s

/-- In every outcome but a delivery the reserved buffer keeps the length it had before (R161, R156): one that the outcome
of a valid DATA returned to the free buffer list has again the length it had before the reply (log entry 11). -/
def State.returnLength (s before : State) (reply : Reply) : State :=
  match before.trunk.current, reply.kind with
  | some { reserved := some b, .. }, .data _ =>
    match (s.buffer b).place with
    | .free => s.setBuffer b { s.buffer b with length := (before.buffer b).length }
    | .held _ | .queued _ | .reserved | .delivered _ _ => s
  | _, _ => s

/-- A reply is judged and its outcome applied (R65, R69, R70, R74): the error's counter steps when the verdict is formed,
whatever becomes of the outcome. -/
def State.replyEnds (s : State) (bytes : List Byte) (clockLost : Bool) : State :=
  let s1 := s.takePayload (dataPayloadTaken bytes clockLost)
  match s.exchangeKind with
  | none => s
  | some k =>
    match judge k s1.expectedAddress (receive bytes clockLost) with
    | .valid reply => ((s1.takeLength reply).outcome (some reply)).returnLength s1 reply
    | .invalid e => (s1.updCounters fun c => c.countReply e).outcome none

/-- REPLY_RECEIVED (R64, R65, R69). -/
def execReplyReceived (bytes : List Byte) (s : State) : Host.Outcome State Fault Refusal :=
  unlessReset (fun s =>
    if s.inPhase .awaiting replyKinds && s.windowOpen then s.replyEnds bytes false else s) s

/-- A miss by timeout: TIMEOUT counts, and the outcome is applied (R62, R63, R74). -/
def State.missByTimeout (s : State) : State :=
  (s.updCounters fun c => { c with timeout := countUp c.timeout }).outcome none

/-- REPLY_TIMEOUT (R63): no reply has begun. -/
def execReplyTimeout (s : State) : Host.Outcome State Fault Refusal :=
  unlessReset (fun s =>
    if s.inPhase .awaiting replyKinds && !s.trunk.receiving then s.missByTimeout else s) s

/-! ### The join window (R66) -/

/-- The join window has run out. -/
def State.joinExpired (s : State) : Bool := decide (s.trunk.replyTimer = some 0)

/-- A frame in the join window is judged (R66): a valid JOIN ends the window; an invalid frame is counted, and ends it
only when the window had expired meanwhile. -/
def State.joinEnds (s : State) (bytes : List Byte) (clockLost : Bool) : State :=
  match judge .invite (fun a => decide (a = 0)) (receive bytes clockLost) with
  | .valid reply =>
    match reply.kind with
    | .join identity => s.endInvitation (some identity)
    | .idle | .data _ | .hold _ | .leave => s
  | .invalid e =>
    let s1 := s.updCounters fun c => c.countJoin e
    if s.joinExpired then s1.endInvitation none else s1.updTrunk fun t => { t with receiving := false }

/-- JOIN_FRAME (R66). -/
def execJoinFrame (bytes : List Byte) (s : State) : Host.Outcome State Fault Refusal :=
  unlessReset (fun s =>
    if s.inPhase .awaiting [.invite] && s.windowOpen then s.joinEnds bytes false else s) s

/-- JOIN_WINDOW_EXPIRY (R66). With a frame in progress the window has expired and ends at that frame's end
(log entry 8). -/
def execJoinWindowExpiry (s : State) : Host.Outcome State Fault Refusal :=
  unlessReset (fun s =>
    if s.inPhase .awaiting [.invite] then
      if s.trunk.receiving then s.updTrunk fun t => { t with replyTimer := some 0 } else s.endInvitation none
    else s) s

/-- REPLY_FIRST_SPACE_BIT (R63, R66): the reply timer of a POLL, DATA or ADMIT stops; a join window's runs on
(log entry 7). -/
def execReplyFirstSpaceBit (s : State) : Host.Outcome State Fault Refusal :=
  unlessReset (fun s =>
    if s.windowOpen then
      if s.inPhase .awaiting replyKinds then s.updTrunk fun t => { t with receiving := true, replyTimer := none }
      else if s.inPhase .awaiting [.invite] then s.updTrunk fun t => { t with receiving := true }
      else s
    else s) s

/-! ### The clock watch (R62, R64, R71) -/

/-- A transmission cut short by the clock watch (R62). -/
def State.cutShort (s : State) : State :=
  match s.exchangeKind with
  | some .poll | some .data | some .admitExchange => s.missByTimeout
  | some .invite => s.toGuard
  | some .dismiss => s.dismissOutcome
  | none => s

/-- A stray frame in progress is dropped, and the receiver hunts again (R67, R71). -/
def State.dropStray (s : State) : State :=
  if s.trunk.hunt.inFrame then s.updTrunk fun t => { t with hunt := Hunt.start } else s

/-- CLOCK_LOSS (R71): with the EXTERNAL source, a transmission is cut short, a reception truncated, a stray frame in
progress dropped. The bytes are those of the reply that had arrived (log entry 22). -/
def execClockLoss (bytes : List Byte) (s : State) : Host.Outcome State Fault Refusal :=
  unlessReset (fun s =>
    if s.trunk.config.clock = .external then
      match s.trunk.line with
      | .sending => s.cutShort
      | .awaiting =>
        if s.trunk.receiving then
          if s.inPhase .awaiting replyKinds then s.replyEnds bytes true
          else if s.inPhase .awaiting [.invite] then s.joinEnds bytes true
          else s
        else s
      | .idle | .guard | .fault => s.dropStray
      | .off => s
    else s) s

/-! ### Guard, stray frames, holds and idles -/

/-- GUARD_EXPIRY (R81, R101, R109). -/
def execGuardExpiry (s : State) : Host.Outcome State Fault Refusal :=
  unlessReset (fun s => if s.trunk.line = .guard then s.guardRunsOut else s) s

/-- The receiver hears bits outside a reply window (R67): each start mark it recognises steps STRAY at once, and the
frame behind it is discarded. -/
def State.hearBits (s : State) : List Bool → State
  | [] => s
  | b :: bits =>
    let v := s.trunk.hunt.hear b
    let s1 := s.updTrunk fun t => { t with hunt := v.1 }
    State.hearBits (if v.2 then s1.updCounters fun c => { c with stray := countUp c.stray } else s1) bits

/-- A stray frame of which the sender gives no bits: its start mark is recognised and counted, and it is discarded to its
end (R67). Inside a stray frame no start mark is recognised (log entry 22). -/
def State.passStray (s : State) : State :=
  if s.trunk.hunt.inFrame then s
  else (s.updTrunk fun t => { t with hunt := Hunt.start }).updCounters fun c => { c with stray := countUp c.stray }

/-- STRAY_FRAME (R67): the receiver hunts in IDLE, GUARD and FAULT, and watches nothing in the other line states, in which
the bits go by unheard. -/
def execStrayFrame (s : State) : Host.Outcome State Fault Refusal :=
  unlessReset (fun s =>
    let s1 := s.updTrunk fun t => { t with lineIn := t.lineIn.tail }
    match s.trunk.line, s.trunk.lineIn with
    | .idle, bits :: _ | .guard, bits :: _ | .fault, bits :: _ => s1.hearBits bits
    | .idle, [] | .guard, [] | .fault, [] => s.passStray
    | .off, _ | .sending, _ | .awaiting, _ => s1) s

/-- A present hold has run out: its last clock period is reached (R122, log entry 26). -/
def holdDue (hold : Option Nat) : Bool := hold.any fun t => decide (t ≤ Config.refPeriod)

/-- HOLD_EXPIRY (R122). No expiry follows from an expiry time that a later HOLD replaced (R117, R123). -/
def execHoldExpiry (slot : SlotNo) (s : State) : Host.Outcome State Fault Refusal :=
  unlessReset (fun s =>
    match s.record slot with
    | some r => if holdDue r.hold then s.endHold slot else s
    | none => s) s

/-- IDLE_EXPIRY (R47): the idle ends, and a Trunk Engine waiting in IDLE chooses again. -/
def execIdleExpiry (s : State) : Host.Outcome State Fault Refusal :=
  unlessReset (fun s =>
    if s.poll.idle.isSome then (s.updPoll fun p => { p with idle := none }).wake else s) s

/-! ### Time (R72) -/

/-- A running timer after one reference clock period. At 0 its expiry is due, which is an event of the table. -/
def tickTimer (t : Option Nat) : Option Nat := t.map fun n => n - Config.refPeriod

/-- A present hold after one reference clock period. Its last period is left to HOLD_EXPIRY, so that a present hold
never reads 0 (R114). -/
def tickHold (t : Option Nat) : Option Nat :=
  t.map fun n => if Config.refPeriod < n then n - Config.refPeriod else n

/-- One period of the reference clock passes (R72, log entry 4): every running timer, idle and hold runs down, and
nothing else changes. While reset in is asserted none runs (R198). -/
def State.tick (s : State) : State :=
  if s.resetIn then s
  else
    { s with
      trunk := { s.trunk with
        txTimer := tickTimer s.trunk.txTimer
        replyTimer := tickTimer s.trunk.replyTimer
        guardTimer := tickTimer s.trunk.guardTimer }
      poll := { s.poll with idle := tickTimer s.poll.idle }
      registry := { s.registry with
        slots := s.registry.slots.map (fun x =>
          { x with record := x.record.map (fun r => { r with hold := tickHold r.hold }) }) } }

/-! ### Resets (R37, R55, R78, R113, R130, R175, R186, R196, R198) -/

/-- A channel's half after a registry reset, before its completions: event causes and overrun cleared, both lists
emptied, the rest kept (R175, R186, R196). -/
def Port.afterRegistryReset (p : Port) : Port :=
  { p with overrun := false, done := false, window := false, changeList := [], deliveryQueue := [] }

/-- The blocks after a registry reset (R196), from the rules of each; what waits on trunk data in is the sender's. -/
def State.resetBlocks (s : State) : State :=
  { s with
    registry := { State.reset.registry with
      slots := s.registry.slots.map (fun x => { x with record := none }) }
    poll := { State.reset.poll with countdown := s.adm.interval, slowDivisor := s.poll.slowDivisor }
    trunk := { State.reset.trunk with
      health := s.trunk.health, config := s.trunk.config, lineIn := s.trunk.lineIn
      replyIn := s.trunk.replyIn }
    adm := { s.adm with candidates := [], nextPartition := 0 }
    pool := { s.pool with
      buffers := s.pool.buffers.map (fun b => { b with place := .free })
      free := allBuffers }
    port0 := s.port0.afterRegistryReset
    port1 := s.port1.afterRegistryReset
    lineCause := false }

/-- A command of Channel 1 that the reset finds PENDING or EXECUTING is discarded with ABORTED (R110, R191, R196). -/
def State.discardOther (s : State) : State :=
  match s.port1.state with
  | .pending | .executing => s.complete .ch1 .aborted []
  | .idle | .done => s

/-- RESET REGISTRY as taken (R196). A reception it drops leaves its bytes in the buffer, as an abort does. -/
def bodyResetRegistry (ch : Channel) (s : State) : State :=
  onChannel0 ch s <| (s.dropReception.resetBlocks.discardOther).complete ch .ok []

/-- RESET_REGISTRY (R37, R196). -/
def execResetRegistry (ch : Channel) (opts : Byte) (s : State) : Host.Outcome State Fault Refusal :=
  command 0x7F bodyResetRegistry ch opts s

/-- PIN_RESET (R198): asserted, reset in puts the part into its pin reset state and holds it there; released, the part
runs from that state. The queue of commands waiting is the model's own and is kept. -/
def execPinReset (asserted : Bool) (s : State) : Host.Outcome State Fault Refusal :=
  if asserted then
    .next { State.reset with pending := s.pending, resetIn := true }
  else .next { s with resetIn := false }

end Sys2Proof.Machine
end

