-- ==== Sys2Proof/Machine/RegistryCommands.lean ====
section
/-! DEFINITION. The registry commands (spec/01 1.6): ENROL to NEXT STATION. -/

namespace Sys2Proof.Machine

/-- The handle and state of a slot as results. -/
def State.foundWords (s : State) (i : SlotNo) : List Word := [handleWord (s.handle i), wordOf (s.stateCode i)]

/-- ENROL's record is created, its candidate removed, and the Trunk Engine woken if that left room for a pending
invitation (R4, R11, R26, R83). -/
def State.enrol (s : State) (ch : Channel) (address : Byte) (identity : List Byte) (cls : Class) (owner : Channel) :
    State :=
  match s.createRecord (Record.fresh .active address identity cls owner) with
  | none => s.fail ch .noSlot
  | some (i, s1) =>
    let s2 := s1.appendRing i
    let s3 := if s2.candidateKnown identity then (s2.removeCandidate identity).wakeIfInvitePending else s2
    s3.complete ch .ok [handleWord (s1.handle i)]

/-- ENROL as taken (R26). -/
def bodyEnrol (ch : Channel) (s : State) : State :=
  onChannel0 ch s <|
    match classOwnerOf (s.arg ch 1), bufOf (s.arg ch 3) with
    | some (cls, owner), some b =>
      if inRange (s.arg ch 0) 1 254 && inRange (s.arg ch 2) 1 16 then
        let address := loByte (s.arg ch 0)
        let identity := s.bufferBytes b (s.arg ch 2).toNat
        if !s.isHeld ch b then s.fail ch .notHeld
        else if (s.lookup address).isSome then s.fail ch .addressInUse
        else if (s.findIdentity identity).isSome then s.fail ch .identityInUse
        else s.enrol ch address identity cls owner
      else s.fail ch .badArgument
    | _, _ => s.fail ch .badArgument

/-- ENROL (R26). -/
def execEnrol (ch : Channel) (opts : Byte) (s : State) : Host.Outcome State Fault Refusal :=
  command 0x10 bodyEnrol ch opts s

/-- RETIRE as taken (R27): a dismissal that joins the Dismissal Queue wakes the Trunk Engine (R83). -/
def bodyRetire (ch : Channel) (s : State) : State :=
  withRecord ch s true true fun i r =>
    match r.state with
    | .retiring | .retired => s.fail ch .wrongState
    | .admitting | .active | .silent | .suspended =>
      let dismiss := s.option1 ch
      let s1 := s.enterRetirement i .host dismiss
      let s2 := if dismiss then s1.wake else s1
      s2.complete ch .ok [wordOf (s1.stateCode i)]

/-- RETIRE (R27). -/
def execRetire (ch : Channel) (opts : Byte) (s : State) : Host.Outcome State Fault Refusal :=
  command 0x11 bodyRetire ch opts s

/-- SUSPEND as taken (R28). -/
def bodySuspend (ch : Channel) (s : State) : State :=
  withRecord ch s true true fun i r =>
    match r.state with
    | .active | .silent =>
      (s.setRecord i (some { r with state := .suspended, failedProbes := none })).complete ch .ok []
    | .admitting | .suspended | .retiring | .retired => s.fail ch .wrongState

/-- SUSPEND (R28). -/
def execSuspend (ch : Channel) (opts : Byte) (s : State) : Host.Outcome State Fault Refusal :=
  command 0x12 bodySuspend ch opts s

/-- RESUME as taken (R29). -/
def bodyResume (ch : Channel) (s : State) : State :=
  withRecord ch s true true fun i r =>
    match r.state with
    | .suspended =>
      (s.setRecord i (some { r with state := .active, missCount := some 0, skip := some 0 })).complete ch .ok []
    | .admitting | .active | .silent | .retiring | .retired => s.fail ch .wrongState

/-- RESUME (R29). -/
def execResume (ch : Channel) (opts : Byte) (s : State) : Host.Outcome State Fault Refusal :=
  command 0x13 bodyResume ch opts s

/-- The skip count after a change of class (R30). -/
def classSkip (slowDivisor : Nat) (state : RecState) (cls : Class) (skip : Option Nat) : Option Nat :=
  match state with
  | .active | .suspended =>
    match cls with
    | .fast => some 0
    | .slow => some (slowDivisor - 1)
  | .admitting | .silent | .retiring | .retired => skip

/-- SET CLASS as taken (R30). -/
def bodySetClass (ch : Channel) (s : State) : State :=
  withRecord ch s true (classOf (s.arg ch 1).toNat).isSome fun i r =>
    match r.state with
    | .retiring | .retired => s.fail ch .wrongState
    | .admitting | .active | .silent | .suspended =>
      let cls := (classOf (s.arg ch 1).toNat).getD .fast
      if cls = r.cls then s.complete ch .ok []
      else
        (s.setRecord i (some { r with
          cls := cls
          skip := classSkip s.poll.slowDivisor r.state cls r.skip })).complete ch .ok []

/-- SET_CLASS (R30). -/
def execSetClass (ch : Channel) (opts : Byte) (s : State) : Host.Outcome State Fault Refusal :=
  command 0x14 bodySetClass ch opts s

/-- A record given to the other channel (R31, R179): its slot leaves the old owner's Change List if it stood there, and
joins the tail of the new owner's with OWNER in its reasons. -/
def State.transferRecord (s : State) (i : SlotNo) (r : Record) (owner : Channel) : State :=
  let s1 := s.setPort r.owner { s.port r.owner with changeList := (s.port r.owner).changeList.erase i }
  (s1.setRecord i (some { r.addReason .owner with owner := owner })).joinChangeList owner i

/-- TRANSFER as taken (R31). -/
def bodyTransfer (ch : Channel) (s : State) : State :=
  onChannel0 ch s <|
    withRecord ch s true (ownerOf (s.arg ch 1).toNat).isSome fun i r =>
      match r.state with
      | .retired => s.fail ch .wrongState
      | .admitting | .active | .silent | .suspended | .retiring =>
        let owner := (ownerOf (s.arg ch 1).toNat).getD .ch0
        if owner = r.owner then s.complete ch .ok []
        else (s.transferRecord i r owner).complete ch .ok []

/-- TRANSFER (R31). -/
def execTransfer (ch : Channel) (opts : Byte) (s : State) : Host.Outcome State Fault Refusal :=
  command 0x15 bodyTransfer ch opts s

/-- The results of READ STATION (R32, R199). -/
def stationWords (r : Record) : List Word :=
  [wordOf (bitsAt r.address.toNat 8 0 + bitsAt r.state.code 3 8 + bitsAt (causeCode r.retireCause) 3 11
      + bitsAt r.cls.code 1 14 + bitsAt (channelCode r.owner) 1 15),
   wordOf (bitsAt (holdReading r.hold) 12 0 + bitsAt r.outq.length 3 12
      + bitsAt (yesNo (r.dismissPending.getD false)) 1 15),
   wordOf (bitsAt (r.headAttempts.getD 0) 4 0 + bitsAt (r.skip.getD 0) 4 4 + bitsAt (r.missCount.getD 0) 4 8
      + bitsAt (r.admitAttempts.getD 0) 2 12),
   wordOf (bitsAt (r.failedProbes.getD 0) 8 0 + bitsAt r.sendSeq.toNat 3 8 + bitsAt r.recvSeq.toNat 3 12),
   wordOf r.replies,
   wordOf r.retransmissions]

/-- READ STATION as taken (R32). -/
def bodyReadStation (ch : Channel) (s : State) : State :=
  withRecord ch s false true fun _ r => s.complete ch .ok (stationWords r)

/-- READ_STATION (R32). -/
def execReadStation (ch : Channel) (opts : Byte) (s : State) : Host.Outcome State Fault Refusal :=
  command 0x16 bodyReadStation ch opts s

/-- READ IDENTITY as taken (R33, R173). -/
def bodyReadIdentity (ch : Channel) (s : State) : State :=
  withRecord ch s false (bufOf (s.arg ch 1)).isSome fun _ r =>
    match bufOf (s.arg ch 1) with
    | none => s.fail ch .badArgument
    | some b =>
      if s.isHeld ch b then (s.stageOut b r.identity).complete ch .ok [wordOf r.identity.length]
      else s.fail ch .notHeld

/-- READ_IDENTITY (R33). -/
def execReadIdentity (ch : Channel) (opts : Byte) (s : State) : Host.Outcome State Fault Refusal :=
  command 0x17 bodyReadIdentity ch opts s

/-- FIND ADDRESS as taken (R34). -/
def bodyFindAddress (ch : Channel) (s : State) : State :=
  if inRange (s.arg ch 0) 1 254 then
    match s.lookup (loByte (s.arg ch 0)) with
    | some i => s.complete ch .ok (s.foundWords i)
    | none => s.fail ch .notFound
  else s.fail ch .badArgument

/-- FIND_ADDRESS (R34). -/
def execFindAddress (ch : Channel) (opts : Byte) (s : State) : Host.Outcome State Fault Refusal :=
  command 0x18 bodyFindAddress ch opts s

/-- FIND IDENTITY as taken (R35). -/
def bodyFindIdentity (ch : Channel) (s : State) : State :=
  match bufOf (s.arg ch 1) with
  | none => s.fail ch .badArgument
  | some b =>
    if inRange (s.arg ch 0) 1 16 then
      if s.isHeld ch b then
        match s.findIdentity (s.bufferBytes b (s.arg ch 0).toNat) with
        | some i => s.complete ch .ok (s.foundWords i)
        | none => s.fail ch .notFound
      else s.fail ch .notHeld
    else s.fail ch .badArgument

/-- FIND_IDENTITY (R35). -/
def execFindIdentity (ch : Channel) (opts : Byte) (s : State) : Host.Outcome State Fault Refusal :=
  command 0x19 bodyFindIdentity ch opts s

/-- The first slot from a start upward whose record is not FREE (R36). -/
def State.nextStation (s : State) (start : Nat) : Option SlotNo :=
  allSlots.find? fun i => decide (start ≤ i.val) && (s.record i).isSome

/-- NEXT STATION as taken (R36). -/
def bodyNextStation (ch : Channel) (s : State) : State :=
  if inRange (s.arg ch 0) 0 63 then
    match s.nextStation (s.arg ch 0).toNat with
    | some i => s.complete ch .ok (s.foundWords i)
    | none => s.fail ch .notFound
  else s.fail ch .badArgument

/-- NEXT_STATION (R36). -/
def execNextStation (ch : Channel) (opts : Byte) (s : State) : Host.Outcome State Fault Refusal :=
  command 0x1A bodyNextStation ch opts s

end Sys2Proof.Machine
end

