-- ==== Sys2Proof/Machine/Dispatch.lean ====
section
/-! DEFINITION. One arm per command of the table, each one call of its meaning. -/

namespace Sys2Proof.Machine

def exec (i : Instr) (s : State) : Host.Outcome State Fault Refusal :=
  match i with
  | .enrol ch opts => Sys2Proof.Machine.execEnrol ch opts s
  | .retire ch opts => Sys2Proof.Machine.execRetire ch opts s
  | .suspend ch opts => Sys2Proof.Machine.execSuspend ch opts s
  | .resume ch opts => Sys2Proof.Machine.execResume ch opts s
  | .setClass ch opts => Sys2Proof.Machine.execSetClass ch opts s
  | .transfer ch opts => Sys2Proof.Machine.execTransfer ch opts s
  | .readStation ch opts => Sys2Proof.Machine.execReadStation ch opts s
  | .readIdentity ch opts => Sys2Proof.Machine.execReadIdentity ch opts s
  | .findAddress ch opts => Sys2Proof.Machine.execFindAddress ch opts s
  | .findIdentity ch opts => Sys2Proof.Machine.execFindIdentity ch opts s
  | .nextStation ch opts => Sys2Proof.Machine.execNextStation ch opts s
  | .setPolling ch opts => Sys2Proof.Machine.execSetPolling ch opts s
  | .configureLine ch opts => Sys2Proof.Machine.execConfigureLine ch opts s
  | .readLineStatus ch opts => Sys2Proof.Machine.execReadLineStatus ch opts s
  | .startLine ch opts => Sys2Proof.Machine.execStartLine ch opts s
  | .stopLine ch opts => Sys2Proof.Machine.execStopLine ch opts s
  | .setHealth ch opts => Sys2Proof.Machine.execSetHealth ch opts s
  | .clearHold ch opts => Sys2Proof.Machine.execClearHold ch opts s
  | .setAdmission ch opts => Sys2Proof.Machine.execSetAdmission ch opts s
  | .writeFilter ch opts => Sys2Proof.Machine.execWriteFilter ch opts s
  | .readFilter ch opts => Sys2Proof.Machine.execReadFilter ch opts s
  | .readCandidate ch opts => Sys2Proof.Machine.execReadCandidate ch opts s
  | .approve ch opts => Sys2Proof.Machine.execApprove ch opts s
  | .reject ch opts => Sys2Proof.Machine.execReject ch opts s
  | .allocate ch opts => Sys2Proof.Machine.execAllocate ch opts s
  | .release ch opts => Sys2Proof.Machine.execRelease ch opts s
  | .send ch opts => Sys2Proof.Machine.execSend ch opts s
  | .takeMessage ch opts => Sys2Proof.Machine.execTakeMessage ch opts s
  | .setReserve ch opts => Sys2Proof.Machine.execSetReserve ch opts s
  | .takeChange ch opts => Sys2Proof.Machine.execTakeChange ch opts s
  | .resetRegistry ch opts => Sys2Proof.Machine.execResetRegistry ch opts s
  | .badCommand ch opts code => Sys2Proof.Machine.execBadCommand ch opts code s
  | .interruptCauseWrite ch value => Sys2Proof.Machine.execInterruptCauseWrite ch value s
  | .interruptEnableWrite ch value => Sys2Proof.Machine.execInterruptEnableWrite ch value s
  | .windowSelectWrite ch value => Sys2Proof.Machine.execWindowSelectWrite ch value s
  | .windowDataRead ch => Sys2Proof.Machine.execWindowDataRead ch s
  | .windowDataWrite ch value => Sys2Proof.Machine.execWindowDataWrite ch value s
  | .registerWrite addr value => Sys2Proof.Machine.execRegisterWrite addr value s
  | .pinReset asserted => Sys2Proof.Machine.execPinReset asserted s
  | .frameSent => Sys2Proof.Machine.execFrameSent s
  | .dismissSent => Sys2Proof.Machine.execDismissSent s
  | .replyReceived bytes => Sys2Proof.Machine.execReplyReceived bytes s
  | .replyTimeout => Sys2Proof.Machine.execReplyTimeout s
  | .joinFrame bytes => Sys2Proof.Machine.execJoinFrame bytes s
  | .joinWindowExpiry => Sys2Proof.Machine.execJoinWindowExpiry s
  | .clockLoss bytes => Sys2Proof.Machine.execClockLoss bytes s
  | .guardExpiry => Sys2Proof.Machine.execGuardExpiry s
  | .strayFrame => Sys2Proof.Machine.execStrayFrame s
  | .holdExpiry slot => Sys2Proof.Machine.execHoldExpiry slot s
  | .idleExpiry => Sys2Proof.Machine.execIdleExpiry s
  | .replyFirstSpaceBit => Sys2Proof.Machine.execReplyFirstSpaceBit s

end Sys2Proof.Machine
end

