-- ==== Sys2Proof/Safety.lean ====
section
/-! DEFINITION. The terms the claims are stated in: when a host command is taken and what its take and its answer write,
what an exchange's outcome leaves of a record, and the sound states, which every step keeps. -/

namespace Sys2Proof

/-- The channel and option byte of a host command; none for a row that is not one. -/
def Instr.issuer : Instr → Option (Channel × Byte)
  | .enrol ch opts | .retire ch opts | .suspend ch opts | .resume ch opts | .setClass ch opts | .transfer ch opts
  | .readStation ch opts | .readIdentity ch opts | .findAddress ch opts | .findIdentity ch opts
  | .nextStation ch opts | .setPolling ch opts | .configureLine ch opts | .readLineStatus ch opts
  | .startLine ch opts | .stopLine ch opts | .setHealth ch opts | .clearHold ch opts | .setAdmission ch opts
  | .writeFilter ch opts | .readFilter ch opts | .readCandidate ch opts | .approve ch opts | .reject ch opts
  | .allocate ch opts | .release ch opts | .send ch opts | .takeMessage ch opts | .setReserve ch opts
  | .takeChange ch opts | .resetRegistry ch opts | .badCommand ch opts _ => some (ch, opts)
  | .interruptCauseWrite _ _ | .interruptEnableWrite _ _ | .windowSelectWrite _ _ | .windowDataRead _
  | .windowDataWrite _ _ | .registerWrite _ _ | .pinReset _ | .frameSent | .dismissSent | .replyReceived _
  | .replyTimeout | .joinFrame _ | .joinWindowExpiry | .clockLoss _ | .guardExpiry | .strayFrame | .holdExpiry _
  | .idleExpiry | .replyFirstSpaceBit => none

/-- The commands reserved to Channel 0 whatever their options (R193 check 2, spec/09 9.8). -/
def Instr.channel0Only : Instr → Bool
  | .enrol _ _ | .transfer _ _ | .setPolling _ _ | .configureLine _ _ | .startLine _ _ | .setHealth _ _
  | .setAdmission _ _ | .writeFilter _ _ | .readFilter _ _ | .readCandidate _ _ | .approve _ _ | .reject _ _
  | .setReserve _ _ | .resetRegistry _ _ => true
  | .retire _ _ | .suspend _ _ | .resume _ _ | .setClass _ _ | .readStation _ _ | .readIdentity _ _
  | .findAddress _ _ | .findIdentity _ _ | .nextStation _ _ | .readLineStatus _ _ | .stopLine _ _ | .clearHold _ _
  | .allocate _ _ | .release _ _ | .send _ _ | .takeMessage _ _ | .takeChange _ _ | .badCommand _ _ _
  | .interruptCauseWrite _ _ | .interruptEnableWrite _ _ | .windowSelectWrite _ _ | .windowDataRead _
  | .windowDataWrite _ _ | .registerWrite _ _ | .pinReset _ | .frameSent | .dismissSent | .replyReceived _
  | .replyTimeout | .joinFrame _ | .joinWindowExpiry | .clockLoss _ | .guardExpiry | .strayFrame | .holdExpiry _
  | .idleExpiry | .replyFirstSpaceBit => false

namespace Machine

/-! ### The take and the answer of a host command (R189 to R192) -/

/-- A host command issued now on a channel is taken now: the channel is free to start it, or waits with this very
command, and the Command Engine serves the channel next. -/
abbrev State.Ready (s : State) (ch : Channel) (code : Byte) : Prop :=
  s.resetIn = false
    ∧ ((s.port ch).state = .idle ∨ (s.port ch).state = .done
        ∨ (s.port ch).state = .pending ∧ (s.port ch).code = code)
    ∧ ((s.port (otherChannel ch)).state ≠ .pending ∨ s.servedLast ≠ ch)

/-- A channel's half at the take of a command: EXECUTING, and, unless the command word was written before, with the
word's code and options stored and DONE and overrun cleared (R190). -/
def Port.atTake (p : Port) (code opts : Byte) : Port :=
  if p.state = .pending then { p with state := .executing }
  else { p with state := .executing, code := code, opts := opts, done := false, overrun := false }

/-- The state at the take of a command (R190 to R192). -/
def State.served (s : State) (ch : Channel) (code opts : Byte) : State :=
  { s.setPort ch ((s.port ch).atTake code opts) with servedLast := ch }

/-- The answer to a command: DONE, the result code, the result words from W1 on and 0 in the rest, and the DONE cause;
nothing else changes (R184, R189 to R191). -/
def State.answer (s : State) (ch : Channel) (result : ResultCode) (results : List Word) : State :=
  s.setPort ch { s.port ch with
    state := .done
    result := result
    words := Vector.ofFn fun n : Fin 6 => results.getD n.val 0
    done := true }

/-- The record the handle in W1 names, or the refusal, in the order of R193: arguments out of range, handle stale, owner
(R5, R6). -/
def State.named (s : State) (ch : Channel) (changes argsOk : Bool) : Except ResultCode (SlotNo × Record) :=
  let slotByte := (loByte (s.arg ch 0)).toNat
  if h : slotByte < 64 then
    let i : SlotNo := ⟨slotByte, h⟩
    if argsOk = false then .error .badArgument
    else
      match s.record i with
      | none => .error .staleHandle
      | some r =>
        if (s.slot i).gen ≠ hiByte (s.arg ch 0) then .error .staleHandle
        else if changes = true ∧ ch = .ch1 ∧ r.owner = .ch0 then .error .notPermitted
        else .ok (i, r)
  else .error .badArgument

/-- The buffer is HELD by the channel (R156). -/
abbrev State.Holds (s : State) (ch : Channel) (b : BufNo) : Prop := (s.buffer b).place = .held ch

/-- A memory is another with bytes written from an address up, and every other byte unchanged. -/
def Wrote (before after : List Host.Cell) (base : Nat) (bytes : List Byte) : Prop :=
  ∀ a, Memory.read after a =
    if base ≤ a ∧ a < base + bytes.length then bytes.getD (a - base) 0 else Memory.read before a

/-! ### Outcomes, as they leave the record of the target -/

/-- A SILENT record that replies recovers (R17). -/
def Record.recovers (r : Record) (slowDivisor : Nat) : Record :=
  if r.state = .silent then
    Record.addReason
      { r with
        state := .active
        missCount := some 0
        failedProbes := none
        skip := some (if r.cls = .fast then 0 else slowDivisor - 1) } .recovered
  else r

/-- A message that was sent and not acknowledged (R92): at the retry limit it is abandoned. -/
def Record.unacknowledged (r : Record) (retryLimit : Nat) (b : BufNo) : Record :=
  let attempts := r.headAttempts.getD 0 + 1
  let r1 := { r with headAttempts := some attempts, retransmissions := min 65535 (r.retransmissions + 1) }
  if retryLimit ≤ attempts then
    Record.addReason
      { r1 with
        outq := r.outq.erase b
        sendSeq := r.sendSeq + 1
        headAttempts := if r.outq.erase b = [] then none else some 0 } .undelivered
  else r1

/-- A message that a reply acknowledges (R91). -/
def Record.acknowledged (r : Record) (b : BufNo) : Record :=
  Record.addReason
    { r with
      outq := r.outq.erase b
      sendSeq := r.sendSeq + 1
      headAttempts := if r.outq.erase b = [] then none else some 0 } .delivered

/-- A reply judged for acknowledgement: a HOLD that does not acknowledge counts no attempt (R93, R121). -/
def Record.judged (r : Record) (retryLimit : Nat) (x : Exchange) (v : Reply) : Record :=
  match x.kind, x.outbound, x.sentNS with
  | .data, some b, some ns =>
    if v.nr = ns + 1 then r.acknowledged b
    else
      match v.kind with
      | .hold _ => r
      | .idle | .data _ | .join _ | .leave => r.unacknowledged retryLimit b
  | _, _, _ => r

/-- A reply's inbound message is delivered: it is new, and a buffer was reserved for it (R94). -/
def Record.takes (r : Record) (x : Exchange) (v : Reply) : Bool :=
  match v.kind with
  | .data _ => decide (v.ns = r.recvSeq) && x.reserved.isSome
  | .idle | .hold _ | .join _ | .leave => false

/-- What the reply's kind does to the record (R94, R117, R118). -/
def Record.applied (r : Record) (x : Exchange) (v : Reply) : Record :=
  match v.kind with
  | .data _ => if r.takes x v then { r with recvSeq := r.recvSeq + 1 } else r
  | .hold n =>
    if n = 0 then
      if r.hold.isSome then Record.addReason { r with hold := none } .holdEnded else r
    else
      if r.hold.isSome then { r with hold := some (n * Config.quantum) }
      else Record.addReason { r with hold := some (n * Config.quantum) } .held
  | .idle | .join _ | .leave => r

/-- What a valid reply to POLL or DATA leaves of its target's record, before a LEAVE retires it (R89). -/
def Record.replied (r : Record) (slowDivisor retryLimit : Nat) (x : Exchange) (v : Reply) : Record :=
  let r1 := r.recovers slowDivisor
  let r2 := { r1 with missCount := some 0, replies := min 65535 (r1.replies + 1) }
  (r2.judged retryLimit x v).applied x v

/-- What a miss counts in the record (R16, R97). -/
def Record.counted (r : Record) (silenceThreshold : Nat) : Record :=
  let misses := min 15 (r.missCount.getD 0 + 1)
  match r.state with
  | .active =>
    if silenceThreshold ≤ misses then
      Record.addReason
        { r with state := .silent, missCount := some misses, skip := some 7, failedProbes := some 0 } .silent
    else { r with missCount := some misses }
  | .silent => { r with missCount := some misses, failedProbes := some (min 255 (r.failedProbes.getD 0 + 1)) }
  | .suspended => { r with missCount := some misses }
  | .admitting | .retiring | .retired => r

/-- What a miss in POLL or DATA leaves of its target's record, before a LOST record is retired (R90). -/
def Record.missed (r : Record) (h : Health) (x : Exchange) : Record :=
  (match x.outbound with
    | some b => r.unacknowledged h.retryLimit b
    | none => r).counted h.silenceThreshold

/-- The record is LOST by this miss (R97). -/
def Record.lostBy (r : Record) (h : Health) : Bool :=
  decide (r.state = .silent ∧ h.lostLimit ≠ 0 ∧ h.lostLimit ≤ min 255 (r.failedProbes.getD 0 + 1))

/-- The carried buffer, when the outcome finished with its message. -/
def finishedBuffer (x : Exchange) (after : Record) : List BufNo :=
  match x.outbound with
  | some b => if b ∈ after.outq then [] else [b]
  | none => []

/-- A channel's Change List after postings to a record: its slot joins the tail when they filled an empty set (R177). -/
def changeListAfter (list : List SlotNo) (i : SlotNo) (before after : Record) : List SlotNo :=
  if before.reasons = 0 ∧ after.reasons ≠ 0 then list ++ [i] else list

/-- What every outcome of an exchange with the target in slot i leaves, up to the release of the target: the record, the
buffers given back to the free buffer list, the postings, and nothing else in the registry, the Ring, the Admission Unit
and the other channel. Deliveries, the line and the memory are said beside it. -/
structure OutcomeFrame (s u : State) (i : SlotNo) (r r' : Record) (freed : List BufNo) : Prop where
  registry : u.registry = (s.setRecord i (some r')).registry
  poll : u.poll = s.poll
  adm : u.adm = s.adm
  free : u.pool.free = s.pool.free ++ freed
  floor : u.pool.reserveFloor = s.pool.reserveFloor
  owner : u.port r.owner =
    { s.port r.owner with
      changeList := changeListAfter (s.port r.owner).changeList i r r'
      deliveryQueue := (u.port r.owner).deliveryQueue }
  other : u.port (otherChannel r.owner) = s.port (otherChannel r.owner)
  rest : u.pending = s.pending ∧ u.resetIn = s.resetIn ∧ u.lineCause = s.lineCause
    ∧ u.servedLast = s.servedLast

/-- The exchange as it stands once its target is released (R81). -/
def Exchange.released (x : Exchange) : Exchange :=
  { x with target := none, sentNS := none, outbound := none, reserved := none }

/-- What a valid reply applies to a member's record and its buffers, up to the release of the target (R89, R91 to R95,
R100). -/
structure Replied (s u : State) (i : SlotNo) (r : Record) (x : Exchange) (v : Reply) (payload : List Byte) : Prop where
  frame : OutcomeFrame s u i r (r.replied s.poll.slowDivisor s.trunk.health.retryLimit x v)
    (finishedBuffer x (r.replied s.poll.slowDivisor s.trunk.health.retryLimit x v)
      ++ if r.takes x v then [] else x.reserved.toList)
  buffers : ∀ b, u.buffer b =
    if r.takes x v = true ∧ x.reserved = some b then
      { length := match v.kind with
          | .data n => n
          | .idle | .hold _ | .join _ | .leave => 0
        place := .delivered (s.handle i) r.address }
    else if x.reserved = some b
        ∨ b ∈ finishedBuffer x (r.replied s.poll.slowDivisor s.trunk.health.retryLimit x v) then
      { s.buffer b with place := .free }
    else s.buffer b
  delivery : (u.port r.owner).deliveryQueue =
    (s.port r.owner).deliveryQueue ++ if r.takes x v then x.reserved.toList else []
  memory : match x.reserved with
    | some b => Wrote s.pool.mem u.pool.mem (bufferBase b) payload
    | none => u.pool.mem = s.pool.mem
  counters : u.trunk.counters =
    (match v.kind with
      | .data _ =>
        if v.ns = r.recvSeq ∨ v.ns = r.recvSeq - 1 then s.trunk.counters
        else { s.trunk.counters with unexpected := min 65535 (s.trunk.counters.unexpected + 1) }
      | .idle | .hold _ | .join _ | .leave => s.trunk.counters)
  trunk : u.trunk = { s.trunk with
    faultRun := 0, current := some x.released, counters := u.trunk.counters }

/-- What a miss applies to a member's record and its buffers, up to the release of the target (R90, R92, R95, R97,
R100). -/
structure Missed (s u : State) (i : SlotNo) (r : Record) (x : Exchange) : Prop where
  frame : OutcomeFrame s u i r (r.missed s.trunk.health x)
    (finishedBuffer x (r.missed s.trunk.health x) ++ x.reserved.toList)
  buffers : ∀ b, u.buffer b =
    if x.reserved = some b ∨ b ∈ finishedBuffer x (r.missed s.trunk.health x) then { s.buffer b with place := .free }
    else s.buffer b
  delivery : (u.port r.owner).deliveryQueue = (s.port r.owner).deliveryQueue
  trunk : u.trunk = { s.trunk with
    faultRun := min 255 (s.trunk.faultRun + 1)
    faultDue := s.trunk.faultDue || decide (s.trunk.health.faultThreshold ≤ min 255 (s.trunk.faultRun + 1))
    current := some x.released
    counters := u.trunk.counters }

/-! ### Sound states -/

/-- The record of a slot satisfies a test. -/
def State.recordIs (s : State) (i : SlotNo) (p : Record → Bool) : Bool := (s.record i).any p

/-- A number lies in a range. -/
def within (low n high : Nat) : Bool := decide (low ≤ n ∧ n ≤ high)

/-- An optional number is present in a range. -/
def presentIn (low : Nat) (n : Option Nat) (high : Nat) : Bool := n.any fun k => within low k high

/-- Which fields are present in which state, and their ranges (R2). -/
def Record.fieldsOk (r : Record) : Bool :=
  match r.state with
  | .admitting =>
    r.skip.isNone && r.missCount.isNone && r.failedProbes.isNone && r.hold.isNone && presentIn 0 r.admitAttempts 2
      && r.retireCause.isNone && r.dismissPending.isNone && r.outq.isEmpty
  | .active =>
    presentIn 0 r.skip 15 && presentIn 0 r.missCount 15 && r.failedProbes.isNone && r.admitAttempts.isNone
      && r.retireCause.isNone && r.dismissPending.isNone
  | .silent =>
    presentIn 0 r.skip 15 && presentIn 0 r.missCount 15 && presentIn 0 r.failedProbes 255 && r.admitAttempts.isNone
      && r.retireCause.isNone && r.dismissPending.isNone
  | .suspended =>
    presentIn 0 r.skip 15 && presentIn 0 r.missCount 15 && r.failedProbes.isNone && r.admitAttempts.isNone
      && r.retireCause.isNone && r.dismissPending.isNone
  | .retiring =>
    r.skip.isNone && r.missCount.isNone && r.failedProbes.isNone && r.hold.isNone && r.admitAttempts.isNone
      && r.retireCause.isSome && r.dismissPending.isSome
  | .retired =>
    r.skip.isNone && r.missCount.isNone && r.failedProbes.isNone && r.hold.isNone && r.admitAttempts.isNone
      && r.retireCause.isSome && r.dismissPending.isNone && r.outq.isEmpty && r.reasons != 0

/-- A record as R2 allows it. -/
def Record.ok (r : Record) : Bool :=
  within 1 r.address.toNat 254 && within 1 r.identity.length 16 && within 0 r.outq.length 4
    && (if r.outq.isEmpty then r.headAttempts.isNone else presentIn 0 r.headAttempts 15)
    && r.hold.all (fun t => within 1 t (4095 * Config.quantum))
    && within 0 r.replies 65535 && within 0 r.retransmissions 65535 && within 0 r.delivered 255
    && within 0 r.undelivered 255 && r.fieldsOk

/-- Every record is as R2 allows it. -/
abbrev State.RecordsOk (s : State) : Prop := ∀ i : SlotNo, (s.record i).all Record.ok = true

/-- How far a stray frame can have come: 32 bits of header, and then at most 120 bytes and the check (R67). -/
def Hunt.ok : Hunt → Bool
  | .seeking _ => true
  | .header taken _ => decide (taken < 32)
  | .discarding left => within 1 left 976

/-- Every setting and count of the Trunk Engine, the Poll Ring, the Admission Unit, the Buffer Manager and the Host Port
is in the range the spec gives it (R49, R53, R67, R74, R75, R100, R111, R130, R131, R138, R141, R142, R158, R185). -/
abbrev State.SettingsOk (s : State) : Prop :=
  (within 2 s.poll.slowDivisor 16 = true ∧ within 1 s.trunk.health.silenceThreshold 15 = true
    ∧ within 0 s.trunk.health.lostLimit 255 = true ∧ within 1 s.trunk.health.retryLimit 15 = true
    ∧ within 1 s.trunk.health.faultThreshold 255 = true ∧ within 0 s.trunk.faultRun 255 = true)
  ∧ (within 2 s.trunk.config.divisor 4095 = true ∧ within 1 s.trunk.config.replyTimeout 255 = true
    ∧ within 1 s.trunk.config.joinWindow 255 = true ∧ within 8 s.trunk.config.guardTime 255 = true)
  ∧ (within 0 s.trunk.counters.check 65535 = true ∧ within 0 s.trunk.counters.format 65535 = true
    ∧ within 0 s.trunk.counters.stray 65535 = true ∧ within 0 s.trunk.counters.unexpected 65535 = true
    ∧ within 0 s.trunk.counters.timeout 65535 = true ∧ within 0 s.trunk.counters.joinCollision 65535 = true
    ∧ within 0 s.trunk.counters.refusedJoin 65535 = true
    ∧ within 0 s.trunk.counters.candidateOverflow 65535 = true)
  ∧ (within 0 s.adm.interval 255 = true ∧ within 0 s.adm.width 3 = true ∧ within 1 s.adm.lapseLimit 255 = true
    ∧ within 1 s.adm.lower s.adm.upper = true ∧ within s.adm.lower s.adm.upper 254 = true
    ∧ s.adm.nextPartition < 2 ^ s.adm.width
    ∧ (if s.adm.interval = 0 then s.poll.countdown = 0 else within 1 s.poll.countdown s.adm.interval = true))
  ∧ (∀ n : Fin 8, s.adm.filters[n].minLength ≤ 16)
  ∧ (s.adm.candidates.length ≤ 8 ∧ (s.adm.candidates.map Candidate.ticket).Nodup
    ∧ ∀ c ∈ s.adm.candidates, c.lapse ≤ 254 ∧ within 1 c.identity.length 16 = true)
  ∧ s.pool.reserveFloor ≤ 8
  ∧ s.port1.enables &&& 0x30 = 0
  ∧ s.trunk.hunt.ok = true

/-- A channel's Change List holds exactly its own records with reasons, each once (R178). -/
abbrev State.ChangeListOk (s : State) (ch : Channel) : Prop :=
  (s.port ch).changeList.Nodup
    ∧ ∀ i, i ∈ (s.port ch).changeList ↔ s.recordIs i (fun r => r.owner == ch && r.reasons != 0) = true

/-- Every collection of the registry holds exactly the records it should, each once (R7 to R11, R38, R41, R141,
R178). -/
abbrev State.RegistryOk (s : State) : Prop :=
  (s.poll.ring.Nodup ∧ (∀ i, i ∈ s.poll.ring ↔ s.recordIs i (fun r => r.state.isMember) = true)
    ∧ s.poll.cursor ≤ s.poll.ring.length)
  ∧ (s.registry.freeSlots.Nodup ∧ ∀ i, i ∈ s.registry.freeSlots ↔ (s.record i).isNone = true)
  ∧ (s.registry.admitQueue.Nodup
    ∧ ∀ i, i ∈ s.registry.admitQueue ↔ s.recordIs i (fun r => r.state == .admitting) = true)
  ∧ (s.registry.dismissQueue.Nodup
    ∧ ∀ i, i ∈ s.registry.dismissQueue ↔
      s.recordIs i (fun r => r.state == .retiring && r.dismissPending == some true) = true)
  ∧ (∀ (a : Byte) (i : SlotNo), s.lookup a = some i ↔
      s.recordIs i (fun r => r.state.counts && r.address == a) = true)
  ∧ (∀ i j : SlotNo,
      s.recordIs i (fun r => r.state.counts
        && s.recordIs j (fun q => q.state.counts && q.identity == r.identity)) = true → i = j)
  ∧ ((s.adm.candidates.map Candidate.identity).Nodup
    ∧ ∀ c ∈ s.adm.candidates, s.findIdentity c.identity = none)
  ∧ s.ChangeListOk .ch0 ∧ s.ChangeListOk .ch1

/-- The Current Exchange holds a record in a state its kind allows, with the buffers its kind carries (R12, R80, R84 to
R87). -/
def State.targetOk (s : State) (x : Exchange) : Bool :=
  match x.kind, x.target with
  | .invite, none => x.sentNS.isNone && x.outbound.isNone && x.reserved.isNone
  | .poll, some h =>
    decide (h = s.handle h.slot) && s.recordIs h.slot (fun r => r.state.isMember || r.state == .retiring)
      && x.sentNS.isSome && x.outbound.isNone
  | .data, some h =>
    decide (h = s.handle h.slot)
      && s.recordIs h.slot (fun r => (r.state.isMember || r.state == .retiring) && x.outbound.isSome
        && r.outq.head? == x.outbound)
      && x.sentNS.isSome
  | .admitExchange, some h =>
    decide (h = s.handle h.slot) && s.recordIs h.slot (fun r => r.state == .admitting || r.state == .retiring)
      && x.sentNS.isNone && x.outbound.isNone && x.reserved.isNone
  | .dismiss, some h =>
    decide (h = s.handle h.slot) && decide (s.registry.dismissQueue.head? = some h.slot)
      && x.sentNS.isNone && x.outbound.isNone && x.reserved.isNone
  | _, _ => false

/-- The line state and the Current Exchange agree (R79 to R81), the receiver hunts in IDLE, GUARD and FAULT alone (R67),
and a RETIRING record that is not waiting for its dismissal is held, and keeps no buffer but a carried one (R19, R22). -/
abbrev State.ExchangeOk (s : State) : Prop :=
  (match s.trunk.line, s.trunk.current with
    | .off, none | .idle, none | .fault, none => true
    | .guard, some x => x.target.isNone && x.sentNS.isNone && x.outbound.isNone && x.reserved.isNone
    | .sending, some x => s.targetOk x
    | .awaiting, some x => s.targetOk x && decide (x.kind ≠ .dismiss)
    | _, _ => false) = true
  ∧ ((match s.trunk.line with
    | .off | .sending | .awaiting => decide (s.trunk.hunt = Hunt.start)
    | .idle | .guard | .fault => true) = true)
  ∧ ∀ i, (s.record i).all (fun r => r.state != .retiring
      || ((r.dismissPending == some true || s.holds i) && (r.outq == (s.carried i).toList))) = true

/-- Each buffer is in one place, and each list of buffers holds exactly the buffers in its place (R156, R157, R159 to
R161). -/
abbrev State.BuffersOk (s : State) : Prop :=
  (s.pool.free.Nodup ∧ ∀ b, b ∈ s.pool.free ↔ (s.buffer b).place = .free)
  ∧ (∀ i, (s.record i).all (fun r => decide r.outq.Nodup) = true)
  ∧ (∀ i b, s.recordIs i (fun r => decide (b ∈ r.outq)) = true ↔ (s.buffer b).place = .queued i)
  ∧ (s.port0.deliveryQueue ++ s.port1.deliveryQueue).Nodup
  ∧ (∀ b, b ∈ s.port0.deliveryQueue ++ s.port1.deliveryQueue ↔
      (match (s.buffer b).place with
        | .delivered _ _ => true
        | .free | .held _ | .queued _ | .reserved => false) = true)
  ∧ (∀ b, (s.trunk.current.any fun x => x.reserved == some b) = true ↔ (s.buffer b).place = .reserved)
  ∧ (∀ b, (s.buffer b).length ≤ 120)

/-- A channel is EXECUTING between events only while it drains, and a drain ends with its exchange's guard (R106, R109,
R191). -/
abbrev State.DrainOk (s : State) : Prop :=
  (match s.trunk.drain with
    | none => decide (s.port0.state ≠ .executing ∧ s.port1.state ≠ .executing)
    | some d =>
      decide ((s.port d.channel).state = .executing ∧ (s.port (otherChannel d.channel)).state ≠ .executing)
        && (match s.trunk.line with
          | .sending | .awaiting | .guard => true
          | .off | .idle | .fault => false)) = true

/-- The sound states: every one the part can reach is among them. -/
abbrev State.Sound (s : State) : Prop :=
  Memory.wf s.pool.mem = true ∧ s.SettingsOk ∧ s.RecordsOk ∧ s.RegistryOk ∧ s.ExchangeOk ∧ s.BuffersOk ∧ s.DrainOk

end Machine

end Sys2Proof
end

