-- ==== Sys2Proof/Certificates/Slice0/Obligations.lean ====
section
/-! DEFINITION. The statements for the provers. A host command is stated on the state at its take, `s.served ch code opts`
(Safety.lean), which differs from s in the channel's half and the served-last indicator alone; its answer changes the
channel's half alone. Each equation gives the whole next state, so what it does not name is unchanged. -/

open Sys2Proof Sys2Proof.Machine

/-! ### The machine -/

/-- The step carries out the command at the front of the queue, with the queue's rest. The queue, and a step as its
front entry, are the model's choice (log entry 1). -/
def Obligations.StepRunsFrontCommand : Prop :=
  ∀ (c : Instr) (rest : List Instr) (s : State), s.pending = c :: rest → step s = exec c { s with pending := rest }

/-- On an empty queue, while reset in is not asserted, one reference clock period passes: it lowers the running
timers, the idle and every hold that is not in its last period, and changes nothing else. The model's choice (log
entries 1 and 4, and 26 for a hold in its last period); the rules it stands on are R72, R46, R63, R73 and R114. -/
def Obligations.EmptyQueueStepIsOneClockPeriod : Prop :=
  ∀ s : State, s.pending = [] → s.resetIn = false →
    ∃ t, step s = .next t
      ∧ t = { s with
          trunk := { s.trunk with
            txTimer := s.trunk.txTimer.map (· - 25)
            replyTimer := s.trunk.replyTimer.map (· - 25)
            guardTimer := s.trunk.guardTimer.map (· - 25) }
          poll := { s.poll with idle := s.poll.idle.map (· - 25) }
          registry := { s.registry with slots := t.registry.slots } }
      ∧ ∀ i, (t.slot i).gen = (s.slot i).gen
        ∧ t.record i = (s.record i).map fun r =>
            { r with hold := r.hold.map fun n => if 25 < n then n - 25 else n }

/-- What a pin reset leaves, block by block. The stored command words, readData and replyIn are the model's
own (log entries 9, 10, 14, 15); that transmitter, receiver and timers hold nothing is DEDUCED (log entries 17
and 22). -/
def Obligations.PinResetState : Prop :=
  let s := State.reset
  (s.resetIn = false ∧ s.lineCause = false ∧ s.servedLast = .ch1)
  ∧ ((∀ i, (s.slot i).gen = 0 ∧ s.record i = none) ∧ (∀ a, s.lookup a = none)
    ∧ s.registry.freeSlots.map Fin.val = List.range 64
    ∧ s.registry.admitQueue = [] ∧ s.registry.dismissQueue = [])
  ∧ (s.poll.ring = [] ∧ s.poll.cursor = 0 ∧ s.poll.pollIssued = false ∧ s.poll.idle = none ∧ s.poll.passCount = 0
    ∧ s.poll.countdown = 0 ∧ s.poll.invitePending = false ∧ s.poll.slowDivisor = 4)
  ∧ (s.trunk.frame = [] ∧ s.trunk.receiving = false ∧ s.trunk.hunt = .seeking 0xFFFF ∧ s.trunk.lineIn = []
    ∧ s.trunk.replyIn = [] ∧ s.trunk.txTimer = none ∧ s.trunk.replyTimer = none ∧ s.trunk.guardTimer = none)
  ∧ (s.trunk.line = .off ∧ s.trunk.current = none ∧ s.trunk.faultRun = 0 ∧ s.trunk.faultDue = false
    ∧ s.trunk.drain = none ∧ s.trunk.health = ⟨3, 16, 4, 32⟩ ∧ s.trunk.config = ⟨64, .internal, 20, 50, 16⟩
    ∧ s.trunk.counters = ⟨0, 0, 0, 0, 0, 0, 0, 0⟩ ∧ s.driverEnable = false ∧ s.clockDriven = false)
  ∧ (s.adm.candidates = [] ∧ s.adm.interval = 0 ∧ s.adm.width = 0 ∧ s.adm.lapseLimit = 16 ∧ s.adm.lower = 1
    ∧ s.adm.upper = 254 ∧ s.adm.ticket = 0 ∧ s.adm.nextPartition = 0
    ∧ ∀ n : Fin 8, s.adm.filters[n] = ⟨false, .refuse, .fast, .ch0, 0, 0, Vector.replicate 16 0⟩)
  ∧ (s.pool.free.map Fin.val = List.range 32 ∧ s.pool.reserveFloor = 2
    ∧ (∀ b, s.buffer b = ⟨0, .free⟩) ∧ ∀ a, Memory.read s.pool.mem a = 0)
  ∧ ∀ ch, (s.port ch).state = .idle ∧ (s.port ch).result = .ok ∧ (s.port ch).overrun = false
    ∧ (s.port ch).words = Vector.replicate 6 0 ∧ s.causes ch = 0 ∧ (s.port ch).enables = 0
    ∧ (s.port ch).winBuf = 0 ∧ (s.port ch).winOff = 0 ∧ (s.port ch).changeList = [] ∧ (s.port ch).deliveryQueue = []
    ∧ s.interruptOut ch = false

/-- PIN_RESET asserted puts the part into its pin reset state and holds it: while reset in is asserted every command and
event of the table leaves the state as it is, but for a data read, which returns 0. PIN_RESET released lets it run. That
the queue is kept is the model's choice (log entry 16). -/
def Obligations.PinResetHoldsThePart : Prop :=
  ∀ s : State,
    exec (.pinReset true) s =
      .next { State.reset with pending := s.pending, resetIn := true }
    ∧ exec (.pinReset false) s = .next { s with resetIn := false }
    ∧ (s.resetIn = true → ∀ c, (∀ level, c ≠ .pinReset level) → (∀ ch, c ≠ .windowDataRead ch) → exec c s = .next s)
    ∧ (s.resetIn = true → ∀ ch, exec (.windowDataRead ch) s = .next (s.setPort ch { s.port ch with readData := 0 }))
    ∧ (s.resetIn = true → ∀ addr, s.readWord addr = 0)

/-! ### The Host Port and the Command Engine -/

/-- A host command that the engine does not take in this event is written and waits: a free channel becomes PENDING with
the command; one that waits with this command keeps waiting; a busy one ignores the word and sets overrun. That the
command's own row stands for the write of its word is the model's choice (log entry 2). -/
def Obligations.CommandWaitsItsTurn : Prop :=
  ∀ (c : Instr) (ch : Channel) (opts code : Byte) (s : State),
    c.issuer = some (ch, opts) → c.commandCode = some code → s.resetIn = false → ¬ s.Ready ch code →
    exec c s = .next (s.setPort ch
      (match (s.port ch).state with
        | .idle | .done =>
          { s.port ch with state := .pending, code := code, opts := opts, done := false, overrun := false }
        | .pending => if (s.port ch).code = code then s.port ch else { s.port ch with overrun := true }
        | .executing => { s.port ch with overrun := true }))

/-- The first two checks of a command: a code that names no command gets BAD_COMMAND on either channel, and a command
reserved to Channel 0 gets NOT_PERMITTED on Channel 1; nothing but the channel's half and the served-last indicator
changes. -/
def Obligations.CodeAndChannelChecks : Prop :=
  (∀ (ch : Channel) (opts code : Byte) (s : State), codeAssigned code = false → s.Ready ch code →
    exec (.badCommand ch opts code) s = .next ((s.served ch code opts).answer ch .badCommand []))
  ∧ ∀ (c : Instr) (opts code : Byte) (s : State), c.channel0Only = true → c.issuer = some (.ch1, opts) →
    c.commandCode = some code → s.Ready .ch1 code →
    exec c s = .next ((s.served .ch1 code opts).answer .ch1 .notPermitted [])

/-- A write of the cause word clears the event causes written with 1; a write of the enable word sets the enables, of
which Channel 1 has four; an interrupt output is asserted while a true cause has its enable set; and the causes are
the six of R183. Of the line's pins, driver enable is asserted in SENDING, and line clock is driven with the INTERNAL
source in every state but OFF. -/
def Obligations.InterruptWordsAndOutputs : Prop :=
  (∀ (ch : Channel) (v : Word) (s : State), s.resetIn = false →
    exec (.interruptCauseWrite ch v) s = .next
      { s.setPort ch { s.port ch with
          done := (s.port ch).done && !v.getLsbD 2
          window := (s.port ch).window && !v.getLsbD 3 } with
        lineCause := if ch = .ch0 then s.lineCause && !v.getLsbD 5 else s.lineCause })
  ∧ (∀ (ch : Channel) (v : Word) (s : State), s.resetIn = false →
    ∃ e : BitVec 6, (∀ n : Fin 6, e.getLsbD n = (v.getLsbD n && (decide (ch = .ch0) || decide (n.val < 4))))
      ∧ exec (.interruptEnableWrite ch v) s = .next (s.setPort ch { s.port ch with enables := e }))
  ∧ ∀ (ch : Channel) (s : State),
    (s.interruptOut ch = true ↔ ∃ n : Fin 6, (s.causes ch).getLsbD n = true ∧ (s.port ch).enables.getLsbD n = true)
    ∧ ((s.causes ch).getLsbD 0 = true ↔ (s.port ch).changeList ≠ [])
    ∧ ((s.causes ch).getLsbD 1 = true ↔ (s.port ch).deliveryQueue ≠ [])
    ∧ (s.causes ch).getLsbD 2 = (s.port ch).done
    ∧ (s.causes ch).getLsbD 3 = (s.port ch).window
    ∧ ((s.causes ch).getLsbD 4 = true ↔ ch = .ch0 ∧ ∃ c ∈ s.adm.candidates, c.disposition = .undecided)
    ∧ (s.causes ch).getLsbD 5 = (decide (ch = .ch0) && s.lineCause)
    ∧ (s.driverEnable = true ↔ s.trunk.line = .sending)
    ∧ (s.clockDriven = true ↔ s.trunk.config.clock = .internal ∧ s.trunk.line ≠ .off)

/-- A write of the window select word sets buffer and offset. An access of the data word to a buffer HELD by the channel
reads or writes the byte at the offset and the next one, 0 after 127, and advances the offset by 2. -/
def Obligations.WindowAccepted : Prop :=
  (∀ (ch : Channel) (v : Word) (s : State), s.resetIn = false →
    exec (.windowSelectWrite ch v) s = .next (s.setPort ch { s.port ch with
      winOff := v.extractLsb' 0 7, winBuf := v.extractLsb' 8 5 }))
  ∧ ∀ (ch : Channel) (s : State), s.resetIn = false → Memory.wf s.pool.mem = true →
    s.Holds ch (s.port ch).winBuf.toFin →
    let base := 128 * (s.port ch).winBuf.toNat
    let off := (s.port ch).winOff.toNat
    exec (.windowDataRead ch) s = .next (s.setPort ch { s.port ch with
        readData := Memory.read s.pool.mem (base + (off + 1) % 128) ++ Memory.read s.pool.mem (base + off)
        winOff := (s.port ch).winOff + 2 })
    ∧ ∀ v : Word, ∃ t, exec (.windowDataWrite ch v) s = .next t
      ∧ t = { s.setPort ch { s.port ch with winOff := (s.port ch).winOff + 2 } with
          pool := { s.pool with mem := t.pool.mem } }
      ∧ ∀ a, Memory.read t.pool.mem a =
        if a = base + off then v.extractLsb' 0 8
        else if a = base + (off + 1) % 128 then v.extractLsb' 8 8
        else Memory.read s.pool.mem a

/-- An access of the window data word to a buffer not HELD by the channel is refused: a read returns 0, a write is
discarded, the offset stays, and the WINDOW cause is set. -/
def Obligations.WindowRefused : Prop :=
  ∀ (ch : Channel) (v : Word) (s : State), s.resetIn = false → ¬ s.Holds ch (s.port ch).winBuf.toFin →
    exec (.windowDataRead ch) s = .next (s.setPort ch { s.port ch with readData := 0, window := true })
    ∧ exec (.windowDataWrite ch v) s = .next (s.setPort ch { s.port ch with window := true })

/-- A bus write of the other words: the command word starts a command on a free channel and sets overrun on a busy one;
an argument word is stored on a free channel and ignored on a busy one; the reserved words ignore writes; the words with
rows of their own act as those rows (log entry 25).
A bus read of every word but the window data word: status, W1 to W6, causes, enables, window select, and 0. -/
def Obligations.RegisterWriteByOffset : Prop :=
  (∀ (ch : Channel) (off : Fin 16) (v : Word) (s : State), s.resetIn = false →
    let addr : BitVec 5 := BitVec.ofNat 5 (off.val + if ch = .ch1 then 16 else 0)
    let p := s.port ch
    let free := p.state = .idle ∨ p.state = .done
    exec (.registerWrite addr v) s =
      if off.val = 0 then
        .next (s.setPort ch
          (if free then
            { p with
              state := .pending, code := v.extractLsb' 0 8, opts := v.extractLsb' 8 8, done := false
              overrun := false }
          else { p with overrun := true }))
      else if h : off.val ≤ 6 then
        .next (if free then s.setPort ch { p with words := p.words.set (off.val - 1) v } else s)
      else if off.val = 7 then exec (.interruptCauseWrite ch v) s
      else if off.val = 8 then exec (.interruptEnableWrite ch v) s
      else if off.val = 9 then exec (.windowSelectWrite ch v) s
      else if off.val = 10 then exec (.windowDataWrite ch v) s
      else .next s)
  ∧ ∀ (ch : Channel) (off : Fin 16) (s : State), s.resetIn = false → off.val ≠ 10 →
    let p := s.port ch
    let states : List ChanState := [.idle, .pending, .executing, .done]
    let codes : List ResultCode :=
      [.ok, .badCommand, .badArgument, .notPermitted, .staleHandle, .wrongState, .noSlot, .noAddress, .addressInUse,
       .identityInUse, .queueFull, .noBuffer, .notHeld, .empty, .notFound, .lineActive, .aborted]
    s.readWord (BitVec.ofNat 5 (off.val + if ch = .ch1 then 16 else 0)) =
      if off.val = 0 then
        (0 : BitVec 3) ++ BitVec.ofNat 5 (codes.idxOf p.result) ++ (0 : BitVec 5) ++ BitVec.ofBool p.overrun
          ++ BitVec.ofNat 2 (states.idxOf p.state)
      else if h : off.val ≤ 6 then p.words[off.val - 1]
      else if off.val = 7 then (0 : BitVec 10) ++ s.causes ch
      else if off.val = 8 then (0 : BitVec 10) ++ p.enables
      else if off.val = 9 then (0 : BitVec 3) ++ p.winBuf ++ (0 : BitVec 1) ++ p.winOff
      else 0

/-! ### The Station Registry's commands -/

/-- ENROL on Channel 0: its checks in order, the new record, the handle answered. A candidate of the identity leaves the
Candidate List; while an invitation is pending that wakes a Trunk Engine waiting in IDLE (R83, R141; that the choice is
made within the command is log entry 24). -/
def Obligations.EnrolEffect : Prop :=
  ∀ (opts : Byte) (s : State), s.Ready .ch0 0x10 →
    let s0 := s.served .ch0 0x10 opts
    let address := (s.arg .ch0 0).toNat
    let size := (s.arg .ch0 2).toNat
    exec (.enrol .ch0 opts) s = .next
      (match classOwnerOf (s.arg .ch0 1), bufOf (s.arg .ch0 3) with
        | some (cls, owner), some b =>
          let identity := s.bufferBytes b size
          let a : Byte := BitVec.ofNat 8 address
          if ¬ (1 ≤ address ∧ address ≤ 254 ∧ 1 ≤ size ∧ size ≤ 16) then s0.answer .ch0 .badArgument []
          else if ¬ s.Holds .ch0 b then s0.answer .ch0 .notHeld []
          else if s.lookup a ≠ none then s0.answer .ch0 .addressInUse []
          else if s.findIdentity identity ≠ none then s0.answer .ch0 .identityInUse []
          else
            match s.registry.freeSlots with
            | [] => s0.answer .ch0 .noSlot []
            | i :: rest =>
              let gen := (s.slot i).gen + 1
              let r : Record :=
                { state := .active, address := a, identity := identity, cls := cls, owner := owner, skip := some 0
                  sendSeq := 0, recvSeq := 0, outq := [], headAttempts := none, missCount := some 0
                  failedProbes := none, hold := none, admitAttempts := none, retireCause := none
                  dismissPending := none, replies := 0, retransmissions := 0, reasons := 0, delivered := 0
                  undelivered := 0 }
              let s1 := { s0 with
                registry := { s.registry with
                  slots := s.registry.slots.set i { gen := gen, record := some r }
                  addressIndex := s.registry.addressIndex.set a.toFin (some i)
                  freeSlots := rest }
                poll := { s.poll with ring := s.poll.ring ++ [i] }
                adm := { s.adm with candidates := s.adm.candidates.filter fun c => c.identity ≠ identity } }
              let wakes := s.poll.invitePending ∧ ∃ c ∈ s.adm.candidates, c.identity = identity
              (if wakes then s1.wake else s1).answer .ch0 .ok [gen ++ BitVec.ofNat 8 i.val]
        | _, _ => s0.answer .ch0 .badArgument [])

/-- RETIRE: the record enters retirement with cause HOST, and RETIRING when an exchange holds it or a dismissal is asked
for, else RETIRED; a dismissal wakes a Trunk Engine waiting in IDLE (R83; that the choice is made within the command is
log entry 24). -/
def Obligations.RetireEffect : Prop :=
  ∀ (ch : Channel) (opts : Byte) (s : State), s.Ready ch 0x11 →
    let s0 := s.served ch 0x11 opts
    let dismiss := s0.option1 ch
    exec (.retire ch opts) s = .next
      (match s0.named ch true true with
        | .error code => s0.answer ch code []
        | .ok (i, r) =>
          if r.state = .retiring ∨ r.state = .retired then s0.answer ch .wrongState []
          else
            let s1 := s0.enterRetirement i .host dismiss
            (if dismiss then s1.wake else s1).answer ch .ok [if s.holds i ∨ dismiss = true then 5 else 6])

/-- SUSPEND takes an ACTIVE or SILENT record to SUSPENDED without its failed probes; RESUME takes a SUSPENDED record to
ACTIVE with miss count and skip count 0. -/
def Obligations.SuspendResumeEffect : Prop :=
  (∀ (ch : Channel) (opts : Byte) (s : State), s.Ready ch 0x12 →
    let s0 := s.served ch 0x12 opts
    exec (.suspend ch opts) s = .next
      (match s0.named ch true true with
        | .error code => s0.answer ch code []
        | .ok (i, r) =>
          if r.state = .active ∨ r.state = .silent then
            (s0.setRecord i (some { r with state := .suspended, failedProbes := none })).answer ch .ok []
          else s0.answer ch .wrongState []))
  ∧ ∀ (ch : Channel) (opts : Byte) (s : State), s.Ready ch 0x13 →
    let s0 := s.served ch 0x13 opts
    exec (.resume ch opts) s = .next
      (match s0.named ch true true with
        | .error code => s0.answer ch code []
        | .ok (i, r) =>
          if r.state = .suspended then
            (s0.setRecord i (some { r with state := .active, missCount := some 0, skip := some 0 })).answer ch .ok []
          else s0.answer ch .wrongState [])

/-- SET CLASS: a new class sets the class, and the skip count of an ACTIVE or SUSPENDED record to 0 for FAST, the slow
divisor minus one for SLOW. -/
def Obligations.SetClassEffect : Prop :=
  ∀ (ch : Channel) (opts : Byte) (s : State), s.Ready ch 0x14 →
    let s0 := s.served ch 0x14 opts
    let w2 := (s.arg ch 1).toNat
    let cls : Machine.Class := if w2 = 0 then .fast else .slow
    exec (.setClass ch opts) s = .next
      (match s0.named ch true (decide (w2 ≤ 1)) with
        | .error code => s0.answer ch code []
        | .ok (i, r) =>
          if r.state = .retiring ∨ r.state = .retired then s0.answer ch .wrongState []
          else if cls = r.cls then s0.answer ch .ok []
          else
            (s0.setRecord i (some { r with
              cls := cls
              skip := if r.state = .active ∨ r.state = .suspended then
                  some (if w2 = 0 then 0 else s.poll.slowDivisor - 1)
                else r.skip })).answer ch .ok [])

/-- TRANSFER on Channel 0: the record's slot leaves the old owner's Change List, OWNER joins its reasons, and the slot
joins the tail of the new owner's list. -/
def Obligations.TransferEffect : Prop :=
  ∀ (opts : Byte) (s : State), s.Ready .ch0 0x15 →
    let s0 := s.served .ch0 0x15 opts
    let w2 := (s.arg .ch0 1).toNat
    let owner : Channel := if w2 = 0 then .ch0 else .ch1
    exec (.transfer .ch0 opts) s = .next
      (match s0.named .ch0 true (decide (w2 ≤ 1)) with
        | .error code => s0.answer .ch0 code []
        | .ok (i, r) =>
          if r.state = .retired then s0.answer .ch0 .wrongState []
          else if owner = r.owner then s0.answer .ch0 .ok []
          else
            let s1 := s0.setRecord i (some { r with owner := owner, reasons := r.reasons ||| 0x080 })
            let s2 := s1.setPort r.owner { s0.port r.owner with changeList := (s0.port r.owner).changeList.erase i }
            (s2.setPort owner { s0.port owner with changeList := (s0.port owner).changeList ++ [i] }).answer
              .ch0 .ok [])

/-- READ STATION returns the fields of a record at the places R199 gives them, an absent field as 0, and changes nothing
but the channel's half. Record states, retire causes, classes and owners are coded as R199 codes them.
READ IDENTITY writes the identity into the buffer from byte 0, and the buffer's length becomes the identity's. -/
def Obligations.ReadsOfARecord : Prop :=
  (∀ (ch : Channel) (opts : Byte) (s : State), s.Ready ch 0x16 →
    let s0 := s.served ch 0x16 opts
    (∀ code, s0.named ch false true = .error code → exec (.readStation ch opts) s = .next (s0.answer ch code []))
    ∧ ∀ i r, s0.named ch false true = .ok (i, r) → r.ok = true →
      exec (.readStation ch opts) s = .next (s0.answer ch .ok
        [BitVec.ofNat 16 (r.address.toNat + 256 * r.state.code + 2048 * causeCode r.retireCause
            + 16384 * r.cls.code + 32768 * channelCode r.owner),
         BitVec.ofNat 16 ((r.hold.getD 0 + 1843199) / 1843200 + 4096 * r.outq.length
            + 32768 * if r.dismissPending = some true then 1 else 0),
         BitVec.ofNat 16 (r.headAttempts.getD 0 + 16 * r.skip.getD 0 + 256 * r.missCount.getD 0
            + 4096 * r.admitAttempts.getD 0),
         BitVec.ofNat 16 (r.failedProbes.getD 0 + 256 * r.sendSeq.toNat + 4096 * r.recvSeq.toNat),
         BitVec.ofNat 16 r.replies,
         BitVec.ofNat 16 r.retransmissions]))
  ∧ (∀ x : RecState, x.code = match x with
      | .admitting => 1 | .active => 2 | .silent => 3 | .suspended => 4 | .retiring => 5 | .retired => 6)
  ∧ (∀ x : Option RetireCause, causeCode x = match x with
      | none => 0 | some .host => 1 | some .left => 2 | some .lost => 3 | some .rejoined => 4 | some .admitFailed => 5)
  ∧ (∀ x : Machine.Class, x.code = match x with | .fast => 0 | .slow => 1)
  ∧ (∀ x : Channel, channelCode x = match x with | .ch0 => 0 | .ch1 => 1)
  ∧ ∀ (ch : Channel) (opts : Byte) (s : State), s.Ready ch 0x17 → Memory.wf s.pool.mem = true →
    let s0 := s.served ch 0x17 opts
    (∀ code, s0.named ch false (decide ((s.arg ch 1).toNat < 32)) = .error code →
      exec (.readIdentity ch opts) s = .next (s0.answer ch code []))
    ∧ ∀ i r b, s0.named ch false true = .ok (i, r) → bufOf (s.arg ch 1) = some b →
      (¬ s.Holds ch b → exec (.readIdentity ch opts) s = .next (s0.answer ch .notHeld []))
      ∧ (s.Holds ch b → r.identity.length ≤ 16 →
        ∃ t, exec (.readIdentity ch opts) s = .next t
          ∧ Wrote s.pool.mem t.pool.mem (128 * b.val) r.identity
          ∧ t = State.answer { s0 with pool := { s.pool with
              mem := t.pool.mem
              buffers := s.pool.buffers.set b { s.buffer b with length := r.identity.length } } }
            ch .ok [BitVec.ofNat 16 r.identity.length])

/-- FIND ADDRESS answers the handle and state of the record the Address Index maps the address to. FIND IDENTITY
answers the record other than RETIRED that holds the identity in the buffer; in a state that held it twice, which no
run reaches, the lowest slot (the model's choice, log entry 20). -/
def Obligations.FindResults : Prop :=
  (∀ (ch : Channel) (opts : Byte) (s : State), s.Ready ch 0x18 →
    let s0 := s.served ch 0x18 opts
    let address := (s.arg ch 0).toNat
    (¬ (1 ≤ address ∧ address ≤ 254) → exec (.findAddress ch opts) s = .next (s0.answer ch .badArgument []))
    ∧ (1 ≤ address ∧ address ≤ 254 →
      (s.lookup (BitVec.ofNat 8 address) = none →
        exec (.findAddress ch opts) s = .next (s0.answer ch .notFound []))
      ∧ ∀ i r, s.lookup (BitVec.ofNat 8 address) = some i → s.record i = some r →
        exec (.findAddress ch opts) s = .next
          (s0.answer ch .ok [(s.slot i).gen ++ BitVec.ofNat 8 i.val, BitVec.ofNat 16 r.state.code])))
  ∧ ∀ (ch : Channel) (opts : Byte) (s : State), s.Ready ch 0x19 →
    let s0 := s.served ch 0x19 opts
    let size := (s.arg ch 0).toNat
    (¬ (1 ≤ size ∧ size ≤ 16 ∧ (s.arg ch 1).toNat < 32) →
      exec (.findIdentity ch opts) s = .next (s0.answer ch .badArgument []))
    ∧ ∀ b, 1 ≤ size ∧ size ≤ 16 → bufOf (s.arg ch 1) = some b →
      let holder := fun i => s.recordIs i fun r => r.state.counts && r.identity == s.bufferBytes b size
      (¬ s.Holds ch b → exec (.findIdentity ch opts) s = .next (s0.answer ch .notHeld []))
      ∧ (s.Holds ch b → (∀ i, holder i = false) →
        exec (.findIdentity ch opts) s = .next (s0.answer ch .notFound []))
      ∧ ∀ i r, s.Holds ch b → s.record i = some r → holder i = true → (∀ j < i, holder j = false) →
        exec (.findIdentity ch opts) s = .next
          (s0.answer ch .ok [(s.slot i).gen ++ BitVec.ofNat 8 i.val, BitVec.ofNat 16 r.state.code])

/-- NEXT STATION answers the first slot from the start slot up to 63 whose record is not FREE. -/
def Obligations.NextStationResult : Prop :=
  ∀ (ch : Channel) (opts : Byte) (s : State), s.Ready ch 0x1A →
    let s0 := s.served ch 0x1A opts
    let start := (s.arg ch 0).toNat
    (63 < start → exec (.nextStation ch opts) s = .next (s0.answer ch .badArgument []))
    ∧ (start ≤ 63 → (∀ i : SlotNo, start ≤ i.val → s.record i = none) →
      exec (.nextStation ch opts) s = .next (s0.answer ch .notFound []))
    ∧ ∀ (i : SlotNo) r, start ≤ i.val → s.record i = some r →
      (∀ j : SlotNo, start ≤ j.val → j < i → s.record j = none) →
      exec (.nextStation ch opts) s = .next
        (s0.answer ch .ok [(s.slot i).gen ++ BitVec.ofNat 8 i.val, BitVec.ofNat 16 r.state.code])

/-! ### The Poll Ring's command and the settings -/

/-- SET POLLING on Channel 0: without KEEP the slow divisor is set, and the skip count of every ACTIVE or SUSPENDED
record above the divisor minus one is lowered to it. That the divisor's present value changes nothing else is log
entry 28. -/
def Obligations.SetPollingEffect : Prop :=
  ∀ (opts : Byte) (s : State), s.Ready .ch0 0x20 →
    let s0 := s.served .ch0 0x20 opts
    let d := (s.arg .ch0 0).toNat
    let results := fun d : Nat =>
      [BitVec.ofNat 16 d, BitVec.ofNat 16 s.poll.ring.length, BitVec.ofNat 16 s.poll.cursor, s.poll.passCount,
       BitVec.ofNat 16 s.poll.countdown,
       BitVec.ofNat 16 ((if s.poll.invitePending then 1 else 0) + if s.poll.idle.isSome then 2 else 0)]
    (s0.option1 .ch0 = true →
      exec (.setPolling .ch0 opts) s = .next (s0.answer .ch0 .ok (results s.poll.slowDivisor)))
    ∧ (s0.option1 .ch0 = false → ¬ (2 ≤ d ∧ d ≤ 16) →
      exec (.setPolling .ch0 opts) s = .next (s0.answer .ch0 .badArgument []))
    ∧ (s0.option1 .ch0 = false → 2 ≤ d ∧ d ≤ 16 → d = s.poll.slowDivisor →
      exec (.setPolling .ch0 opts) s = .next (s0.answer .ch0 .ok (results d)))
    ∧ (s0.option1 .ch0 = false → 2 ≤ d ∧ d ≤ 16 → d ≠ s.poll.slowDivisor →
      ∃ t, exec (.setPolling .ch0 opts) s = .next t
        ∧ t = State.answer { s0 with
            poll := { s.poll with slowDivisor := d }
            registry := { s.registry with slots := t.registry.slots } } .ch0 .ok (results d)
        ∧ ∀ i, (t.slot i).gen = (s.slot i).gen
          ∧ t.record i = (s.record i).map fun r =>
              if r.state = .active ∨ r.state = .suspended then { r with skip := r.skip.map fun k => min k (d - 1) }
              else r)

/-- CONFIGURE LINE on Channel 0: with KEEP a read; without it, arguments in range and the line stopped, the five
settings are written together. SET HEALTH on Channel 0: with KEEP a read; without it, arguments in range, the four
settings are written. -/
def Obligations.LineAndHealthSettings : Prop :=
  (∀ (opts : Byte) (s : State), s.Ready .ch0 0x30 →
    let s0 := s.served .ch0 0x30 opts
    let w := fun n : Fin 6 => (s.arg .ch0 n).toNat
    let results := fun c : LineConfig =>
      [BitVec.ofNat 16 c.divisor, if c.clock = .internal then 0 else 1, BitVec.ofNat 16 c.replyTimeout,
       BitVec.ofNat 16 c.joinWindow, BitVec.ofNat 16 c.guardTime]
    let c : LineConfig :=
      { divisor := w 0, clock := if w 1 = 0 then .internal else .external, replyTimeout := w 2, joinWindow := w 3
        guardTime := w 4 }
    let good := (2 ≤ w 0 ∧ w 0 ≤ 4095) ∧ w 1 ≤ 1 ∧ (1 ≤ w 2 ∧ w 2 ≤ 255) ∧ (1 ≤ w 3 ∧ w 3 ≤ 255)
      ∧ (8 ≤ w 4 ∧ w 4 ≤ 255)
    exec (.configureLine .ch0 opts) s = .next
      (if s0.option1 .ch0 = true then s0.answer .ch0 .ok (results s.trunk.config)
      else if ¬ good then s0.answer .ch0 .badArgument []
      else if s.trunk.line = .off ∨ s.trunk.line = .fault then
        State.answer { s0 with trunk := { s.trunk with config := c } } .ch0 .ok (results c)
      else s0.answer .ch0 .lineActive []))
  ∧ ∀ (opts : Byte) (s : State), s.Ready .ch0 0x34 →
    let s0 := s.served .ch0 0x34 opts
    let w := fun n : Fin 6 => (s.arg .ch0 n).toNat
    let results := fun h : Health =>
      [BitVec.ofNat 16 h.silenceThreshold, BitVec.ofNat 16 h.lostLimit, BitVec.ofNat 16 h.retryLimit,
       BitVec.ofNat 16 h.faultThreshold]
    let h : Health := { silenceThreshold := w 0, lostLimit := w 1, retryLimit := w 2, faultThreshold := w 3 }
    exec (.setHealth .ch0 opts) s = .next
      (if s0.option1 .ch0 = true then s0.answer .ch0 .ok (results s.trunk.health)
      else if (1 ≤ w 0 ∧ w 0 ≤ 15) ∧ w 1 ≤ 255 ∧ (1 ≤ w 2 ∧ w 2 ≤ 15) ∧ (1 ≤ w 3 ∧ w 3 ≤ 255) then
        State.answer { s0 with trunk := { s.trunk with health := h } } .ch0 .ok (results h)
      else s0.answer .ch0 .badArgument [])

/-- READ LINE STATUS returns the line state, the fault run and the four counters of the page; CLEAR, on Channel 0 alone,
sets the page's counters to 0 after they are read. Line states are coded as R199 codes them. -/
def Obligations.ReadLineStatusEffect : Prop :=
  (∀ x : LineState, x.code = match x with
    | .off => 0 | .idle => 1 | .sending => 2 | .awaiting => 3 | .guard => 4 | .fault => 5)
  ∧ ∀ (ch : Channel) (opts : Byte) (s : State), s.Ready ch 0x31 → s.trunk.faultRun ≤ 255 →
    let s0 := s.served ch 0x31 opts
    let page := (s.arg ch 0).toNat
    let clear := s0.option2 ch
    let n := s.trunk.counters
    let word := fun k : Nat => BitVec.ofNat 16 k
    let first := word (s.trunk.line.code + 256 * s.trunk.faultRun)
    exec (.readLineStatus ch opts) s = .next
      (if ch = .ch1 ∧ clear = true then s0.answer ch .notPermitted []
      else if 1 < page then s0.answer ch .badArgument []
      else if page = 0 then
        State.answer
          (if clear = true then { s0 with trunk := { s.trunk with
              counters := { n with check := 0, format := 0, stray := 0, unexpected := 0 } } }
            else s0)
          ch .ok [first, word n.check, word n.format, word n.stray, word n.unexpected]
      else
        State.answer
          (if clear = true then { s0 with trunk := { s.trunk with
              counters := { n with timeout := 0, joinCollision := 0, refusedJoin := 0, candidateOverflow := 0 } } }
            else s0)
          ch .ok [first, word n.timeout, word n.joinCollision, word n.refusedJoin, word n.candidateOverflow])

/-- CLEAR HOLD ends the hold of an ACTIVE, SILENT or SUSPENDED record, posting HOLD_ENDED, and returns whether it was
present and its remaining quanta, rounded up. -/
def Obligations.ClearHoldEffect : Prop :=
  ∀ (ch : Channel) (opts : Byte) (s : State), s.Ready ch 0x40 →
    let s0 := s.served ch 0x40 opts
    exec (.clearHold ch opts) s = .next
      (match s0.named ch true true with
        | .error code => s0.answer ch code []
        | .ok (i, r) =>
          if r.state.isMember = false then s0.answer ch .wrongState []
          else
            match r.hold with
            | none => s0.answer ch .ok [0, 0]
            | some t =>
              ((s0.setRecord i (some { r with hold := none })).post i .holdEnded).answer ch .ok
                [1, BitVec.ofNat 16 ((t + 1843199) / 1843200)])

/-! ### The line's commands -/

/-- START LINE on Channel 0: from OFF or FAULT, with fault run 0 and fault due no, the line enters IDLE and the next
exchange is chosen within the same event. -/
def Obligations.StartLineEffect : Prop :=
  ∀ (opts : Byte) (s : State), s.Ready .ch0 0x32 →
    let s0 := s.served .ch0 0x32 opts
    exec (.startLine .ch0 opts) s = .next
      (if s.trunk.line = .off ∨ s.trunk.line = .fault then
        (State.choose { s0 with trunk := { s.trunk with line := .idle, faultRun := 0, faultDue := false } }).answer
          .ch0 .ok []
      else s0.answer .ch0 .lineActive [])

/-- STOP LINE on either channel, by its options and the line state it is taken in. A drain in progress on the other
channel ends when ABORT takes the line to OFF: ABORTED from SENDING and AWAITING, DRAINED from GUARD. -/
def Obligations.StopLineEffect : Prop :=
  ∀ (ch : Channel) (opts : Byte) (s : State), s.Ready ch 0x33 →
    let s0 := s.served ch 0x33 opts
    let was := s.trunk.line
    let off := fun u : State => { u with trunk := { u.trunk with
      line := .off, current := none, frame := [], receiving := false, hunt := Hunt.start, txTimer := none
      replyTimer := none, guardTimer := none, faultDue := false } }
    let drained := fun (u : State) (ended : Word) =>
      match s.trunk.drain with
      | none => u
      | some d =>
        State.answer { u with trunk := { u.trunk with drain := none } } d.channel .ok
          [BitVec.ofNat 16 d.takenIn.code, ended]
    let done := fun (u : State) (ended : Word) => u.answer ch .ok [BitVec.ofNat 16 was.code, ended]
    exec (.stopLine ch opts) s = .next
      (if s0.option1 ch = s0.option2 ch then s0.answer ch .badArgument []
      else if s0.option1 ch = true then
        match was with
        | .off => done s0 0
        | .idle | .fault => done (off s0) 0
        | .guard => done (drained (off s0) 2) 0
        | .sending | .awaiting => done (drained (off s0.abortExchange) 1) 1
      else if s.trunk.drain ≠ none then s0.answer ch .wrongState []
      else
        match was with
        | .off => done s0 0
        | .idle | .fault | .guard => done (off s0) 0
        | .sending | .awaiting => { s0 with trunk := { s.trunk with drain := some { channel := ch, takenIn := was } } })

/-- An abort applies no outcome: the target's record keeps every field, but for a RETIRING target's carried buffer; the
reserved buffer goes to the tail of the free buffer list; a RETIRING target whose dismissal is not pending then enters
RETIRED. A reply being received is dropped: of a DATA the payload bytes that had arrived are in the reserved buffer, and
else its contents are kept; which bytes had arrived is what trunk data in brought, the front of replyIn (log entry 9).
An INVITE has no target and no buffer: its abort changes nothing here. -/
def Obligations.AbortReleasesTheExchange : Prop :=
  (∀ (s : State) (x : Exchange) (h : Handle) (r : Record), s.trunk.current = some x → x.target = some h →
    s.record h.slot = some r → Memory.wf s.pool.mem = true →
    let t := s.abortExchange
    let freed := fun (u : State) (b : Option BufNo) =>
      match b with
      | some b => { u.setBuffer b { u.buffer b with place := .free } with
          pool := { (u.setBuffer b { u.buffer b with place := .free }).pool with free := u.pool.free ++ [b] } }
      | none => u
    let dropped := s.trunk.receiving = true ∧ x.reserved ≠ none
    let s1 : State := { s with
      trunk := { s.trunk with replyIn := if dropped then s.trunk.replyIn.tail else s.trunk.replyIn }
      pool := { s.pool with mem := t.pool.mem } }
    let s2 := freed s1 x.reserved
    let released := fun u : State => { u with trunk := { u.trunk with current := some x.released } }
    (r.state ≠ .retiring → t = released s2)
    ∧ (r.state = .retiring → (∀ b, x.outbound = some b → b ∈ r.outq) →
      let r1 := match x.outbound with
        | some b => { r with
            outq := r.outq.erase b
            headAttempts := if r.outq.erase b = [] then none else r.headAttempts }
        | none => r
      let s3 := freed (s2.setRecord h.slot (some r1)) x.outbound
      let s4 := released (if x.outbound.isSome then s3.post h.slot .undelivered else s3)
      t = if r.dismissPending = some false then s4.enterRetired h.slot else s4)
    ∧ (¬ dropped → t.pool.mem = s.pool.mem)
    ∧ ∀ b, x.reserved = some b → s.trunk.receiving = true →
      Wrote s.pool.mem t.pool.mem (128 * b.val) (dataPayloadTaken (s.trunk.replyIn.headD []) true))
  ∧ ∀ (s : State) (x : Exchange), s.trunk.current = some x → x.target = none → s.abortExchange = s

/-! ### The Admission Unit's commands -/

/-- SET ADMISSION on Channel 0: with KEEP a read; else the five settings are written, the countdown reloaded, a pending
invitation dropped by interval 0, the next partition number cleared by a new width, and the DEFERRED candidates retried;
an admission wakes a Trunk Engine waiting in IDLE (R83; that the choice is made within the command is log entry 24). -/
def Obligations.SetAdmissionEffect : Prop :=
  ∀ (opts : Byte) (s : State), s.Ready .ch0 0x50 → s.adm.candidates.length ≤ 8 → s.adm.nextPartition < 8 →
    let s0 := s.served .ch0 0x50 opts
    let w := fun n : Fin 6 => (s.arg .ch0 n).toNat
    let results := fun u : State =>
      [BitVec.ofNat 16 u.adm.interval, BitVec.ofNat 16 u.adm.width, BitVec.ofNat 16 u.adm.lapseLimit,
       BitVec.ofNat 16 u.adm.lower, BitVec.ofNat 16 u.adm.upper,
       BitVec.ofNat 16 (u.adm.ticket.toNat + 256 * u.adm.candidates.length + 4096 * u.adm.nextPartition)]
    let good := w 0 ≤ 255 ∧ w 1 ≤ 3 ∧ (1 ≤ w 2 ∧ w 2 ≤ 255) ∧ 1 ≤ w 3 ∧ w 3 ≤ w 4 ∧ w 4 ≤ 254
    let s1 : State := { s0 with
      adm := { s.adm with
        interval := w 0, width := w 1, lapseLimit := w 2, lower := w 3, upper := w 4
        nextPartition := if w 1 = s.adm.width then s.adm.nextPartition else 0 }
      poll := { s.poll with
        countdown := w 0
        invitePending := s.poll.invitePending && decide (w 0 ≠ 0) } }
    let s2 := s1.retryDeferred
    exec (.setAdmission .ch0 opts) s = .next
      (if s0.option1 .ch0 = true then s0.answer .ch0 .ok (results s)
      else if ¬ good then s0.answer .ch0 .badArgument []
      else (if s2.2 = 0 then s2.1 else s2.1.wake).answer .ch0 .ok (results s2.1))

/-- WRITE FILTER on Channel 0 stores all fields of a filter, the pattern bytes below the minimum length from the buffer
and 0 beyond. That an enabled byte above 1 is BAD_ARGUMENT is log entry 13.
READ FILTER on Channel 0 returns a filter's fields, and writes its pattern bytes below the minimum length into the
buffer, which the minimum length 0 leaves alone. Filter actions are coded as R199 codes them. -/
def Obligations.FilterCommands : Prop :=
  (∀ x : FilterAction, x.code = match x with | .refuse => 0 | .admitIt => 1)
  ∧ (∀ (opts : Byte) (s : State), s.Ready .ch0 0x51 →
    let s0 := s.served .ch0 0x51 opts
    let w := s.arg .ch0
    let size := (w 3).toNat
    let good := (w 0).toNat < 8 ∧ (loByte (w 1)).toNat ≤ 1 ∧ (hiByte (w 1)).toNat ≤ 1
      ∧ (loByte (w 2)).toNat ≤ 1 ∧ (hiByte (w 2)).toNat ≤ 1 ∧ size ≤ 16 ∧ (size = 0 ∨ (w 5).toNat < 32)
    (¬ good → exec (.writeFilter .ch0 opts) s = .next (s0.answer .ch0 .badArgument []))
    ∧ ∀ (n : Fin 8) (b : BufNo), good → n.val = (w 0).toNat → (size = 0 ∨ b.val = (w 5).toNat) →
      let f : Filter :=
        { enabled := decide ((loByte (w 1)).toNat = 1)
          action := if (hiByte (w 1)).toNat = 0 then .refuse else .admitIt
          cls := if (loByte (w 2)).toNat = 0 then .fast else .slow
          owner := if (hiByte (w 2)).toNat = 0 then .ch0 else .ch1
          minLength := size
          compare := w 4
          pattern := Vector.ofFn fun k : Fin 16 =>
            if k.val < size then Memory.read s.pool.mem (128 * b.val + k.val) else 0 }
      exec (.writeFilter .ch0 opts) s = .next
        (if size ≠ 0 ∧ ¬ s.Holds .ch0 b then s0.answer .ch0 .notHeld []
        else State.answer { s0 with adm := { s.adm with filters := s.adm.filters.set n f } } .ch0 .ok []))
  ∧ ∀ (opts : Byte) (s : State), s.Ready .ch0 0x52 → Memory.wf s.pool.mem = true →
    let s0 := s.served .ch0 0x52 opts
    let w := s.arg .ch0
    (¬ ((w 0).toNat < 8 ∧ (w 1).toNat < 32) → exec (.readFilter .ch0 opts) s = .next (s0.answer .ch0 .badArgument []))
    ∧ ∀ (n : Fin 8) (b : BufNo), n.val = (w 0).toNat → b.val = (w 1).toNat →
      let f := s.adm.filters[n]
      let results : List Word :=
        [BitVec.ofNat 16 n.val, BitVec.ofNat 16 ((if f.enabled then 1 else 0) + 256 * f.action.code),
         BitVec.ofNat 16 (f.cls.code + 256 * channelCode f.owner), BitVec.ofNat 16 f.minLength, f.compare]
      (f.minLength = 0 → exec (.readFilter .ch0 opts) s = .next (s0.answer .ch0 .ok results))
      ∧ (f.minLength ≠ 0 → ¬ s.Holds .ch0 b →
        exec (.readFilter .ch0 opts) s = .next (s0.answer .ch0 .notHeld []))
      ∧ (f.minLength ≠ 0 → f.minLength ≤ 16 → s.Holds .ch0 b →
        ∃ t, exec (.readFilter .ch0 opts) s = .next t
          ∧ Wrote s.pool.mem t.pool.mem (128 * b.val) (f.pattern.toList.take f.minLength)
          ∧ t = State.answer { s0 with pool := { s.pool with
              mem := t.pool.mem
              buffers := s.pool.buffers.set b { s.buffer b with length := f.minLength } } } .ch0 .ok results)

/-- READ CANDIDATE on Channel 0 returns the entry at a position of the Candidate List and writes its identity into the
buffer. -/
def Obligations.ReadCandidateEffect : Prop :=
  ∀ (opts : Byte) (s : State), s.Ready .ch0 0x53 → Memory.wf s.pool.mem = true →
    let s0 := s.served .ch0 0x53 opts
    let w := s.arg .ch0
    let position := (w 0).toNat
    (¬ (position < 8 ∧ (w 1).toNat < 32) →
      exec (.readCandidate .ch0 opts) s = .next (s0.answer .ch0 .badArgument []))
    ∧ ∀ b : BufNo, position < 8 → b.val = (w 1).toNat →
      (¬ s.Holds .ch0 b → exec (.readCandidate .ch0 opts) s = .next (s0.answer .ch0 .notHeld []))
      ∧ (s.Holds .ch0 b → s.adm.candidates.length ≤ position →
        exec (.readCandidate .ch0 opts) s = .next (s0.answer .ch0 .notFound []))
      ∧ ∀ c, s.Holds .ch0 b → s.adm.candidates[position]? = some c → c.identity.length ≤ 16 →
        ∃ t, exec (.readCandidate .ch0 opts) s = .next t
          ∧ Wrote s.pool.mem t.pool.mem (128 * b.val) c.identity
          ∧ t = State.answer { s0 with pool := { s.pool with
              mem := t.pool.mem
              buffers := s.pool.buffers.set b { s.buffer b with length := c.identity.length } } } .ch0 .ok
            [BitVec.ofNat 16 c.ticket.toNat, if c.disposition = .undecided then 0 else 1, BitVec.ofNat 16 c.lapse,
             BitVec.ofNat 16 c.identity.length,
             match c.disposition with
               | .undecided => 0x0303
               | .deferred cls owner => BitVec.ofNat 16 (cls.code + 256 * channelCode owner),
             BitVec.ofNat 16 s.adm.candidates.length]

/-- APPROVE on Channel 0 admits the candidate of a ticket, at the address given or, for 0, at the allocator's,
checking the arguments, the ticket, a slot and the address in this order; the ADMITTING record wakes a Trunk Engine
waiting in IDLE. REJECT on Channel 0 removes the candidate of a ticket and returns its disposition; while an
invitation is pending the removal wakes a Trunk Engine waiting in IDLE (R83, R141; that the choice is made within
either command is log entry 24). -/
def Obligations.CandidateDecisions : Prop :=
  (∀ (opts : Byte) (s : State), s.Ready .ch0 0x54 →
    let s0 := s.served .ch0 0x54 opts
    let ticket := (s.arg .ch0 0).toNat
    let address := (s.arg .ch0 2).toNat
    exec (.approve .ch0 opts) s = .next
      (match classOwnerOf (s.arg .ch0 1) with
        | none => s0.answer .ch0 .badArgument []
        | some (cls, owner) =>
          if ¬ (ticket ≤ 255 ∧ address ≤ 254) then s0.answer .ch0 .badArgument []
          else
            match s.adm.candidates.find? fun c => decide (c.ticket.toNat = ticket) with
            | none => s0.answer .ch0 .notFound []
            | some c =>
              match s.registry.freeSlots with
              | [] => s0.answer .ch0 .noSlot []
              | i :: rest =>
                let admitted := fun a : Byte =>
                  let gen := (s.slot i).gen + 1
                  let s1 : State := { s0 with
                    registry := { s.registry with
                      slots := s.registry.slots.set i
                        { gen := gen, record := some (Record.fresh .admitting a c.identity cls owner) }
                      addressIndex := s.registry.addressIndex.set a.toFin (some i)
                      freeSlots := rest
                      admitQueue := s.registry.admitQueue ++ [i] }
                    adm := { s.adm with candidates := s.adm.candidates.filter fun d => d.identity ≠ c.identity } }
                  s1.wake.answer .ch0 .ok [gen ++ BitVec.ofNat 8 i.val, BitVec.ofNat 16 a.toNat]
                if address = 0 then
                  match s.allocateAddress with
                  | none => s0.answer .ch0 .noAddress []
                  | some a => admitted a
                else if s.lookup (BitVec.ofNat 8 address) ≠ none then s0.answer .ch0 .addressInUse []
                else admitted (BitVec.ofNat 8 address)))
  ∧ ∀ (opts : Byte) (s : State), s.Ready .ch0 0x55 →
    let s0 := s.served .ch0 0x55 opts
    let ticket := (s.arg .ch0 0).toNat
    exec (.reject .ch0 opts) s = .next
      (if 255 < ticket then s0.answer .ch0 .badArgument []
      else
        match s.adm.candidates.find? fun c => decide (c.ticket.toNat = ticket) with
        | none => s0.answer .ch0 .notFound []
        | some c =>
          let s1 : State := { s0 with
            adm := { s.adm with candidates := s.adm.candidates.filter fun d => d.ticket ≠ c.ticket } }
          (if s.poll.invitePending then s1.wake else s1).answer .ch0 .ok
            [if c.disposition = .undecided then 0 else 1])

/-! ### The Buffer Manager's commands and TAKE CHANGE -/

/-- ALLOCATE hands the head of the free buffer list to the channel while the list is longer than the reserve floor.
TAKE MESSAGE hands the head of the channel's delivery queue to the channel, with its length, source handle and source
address, and the number left. -/
def Obligations.BuffersHandedToTheHost : Prop :=
  (∀ (ch : Channel) (opts : Byte) (s : State), s.Ready ch 0x60 →
    let s0 := s.served ch 0x60 opts
    exec (.allocate ch opts) s = .next
      (match s.pool.free with
        | [] => s0.answer ch .noBuffer []
        | b :: rest =>
          if s.pool.free.length ≤ s.pool.reserveFloor then s0.answer ch .noBuffer []
          else
            State.answer { s0 with pool := { s.pool with
                free := rest
                buffers := s.pool.buffers.set b { s.buffer b with place := .held ch } } }
              ch .ok [BitVec.ofNat 16 b.val, BitVec.ofNat 16 rest.length]))
  ∧ ∀ (ch : Channel) (opts : Byte) (s : State), s.Ready ch 0x63 →
    let s0 := s.served ch 0x63 opts
    ((s.port ch).deliveryQueue = [] → exec (.takeMessage ch opts) s = .next (s0.answer ch .empty []))
    ∧ ∀ b rest h a, (s.port ch).deliveryQueue = b :: rest → (s.buffer b).place = .delivered h a →
      exec (.takeMessage ch opts) s = .next
        (State.answer
          { s0.setPort ch { s0.port ch with deliveryQueue := rest } with pool := { s.pool with
              buffers := s.pool.buffers.set b { s.buffer b with place := .held ch } } }
          ch .ok
          [BitVec.ofNat 16 b.val, BitVec.ofNat 16 (s.buffer b).length, h.gen ++ BitVec.ofNat 8 h.slot.val,
           BitVec.ofNat 16 a.toNat, BitVec.ofNat 16 rest.length])

/-- RELEASE returns a buffer the issuing channel holds: it becomes FREE at the tail of the free buffer list, with its
contents and length kept, and the free count after the addition is returned; nothing else changes. -/
def Obligations.ReleaseEffect : Prop :=
  ∀ (ch : Channel) (opts : Byte) (s : State), s.Ready ch 0x61 →
    let s0 := s.served ch 0x61 opts
    (31 < (s.arg ch 0).toNat → exec (.release ch opts) s = .next (s0.answer ch .badArgument []))
    ∧ ∀ b : BufNo, b.val = (s.arg ch 0).toNat →
      exec (.release ch opts) s = .next
        (if ¬ s.Holds ch b then s0.answer ch .notHeld []
        else
          State.answer { s0 with pool := { s.pool with
              free := s.pool.free ++ [b]
              buffers := s.pool.buffers.set b { length := (s.buffer b).length, place := .free } } }
            ch .ok [BitVec.ofNat 16 (s.pool.free.length + 1)])

/-- SEND queues a message at the tail of a member's outbound queue, checking arguments, handle, owner, buffer, state and
queue in this order. -/
def Obligations.SendEffect : Prop :=
  ∀ (ch : Channel) (opts : Byte) (s : State), s.Ready ch 0x62 →
    let s0 := s.served ch 0x62 opts
    let size := (s.arg ch 2).toNat
    (∀ code, s0.named ch true (decide ((s.arg ch 1).toNat < 32 ∧ size ≤ 120)) = .error code →
      exec (.send ch opts) s = .next (s0.answer ch code []))
    ∧ ∀ i r b, s0.named ch true true = .ok (i, r) → bufOf (s.arg ch 1) = some b → size ≤ 120 →
      exec (.send ch opts) s = .next
        (if ¬ s.Holds ch b then s0.answer ch .notHeld []
        else if r.state.isMember = false then s0.answer ch .wrongState []
        else if 4 ≤ r.outq.length then s0.answer ch .queueFull []
        else
          State.answer { s0 with
              registry := { s.registry with slots := s.registry.slots.set i { s.slot i with record := some { r with
                outq := r.outq ++ [b]
                headAttempts := if r.outq = [] then some 0 else r.headAttempts } } }
              pool := { s.pool with buffers := s.pool.buffers.set b { length := size, place := .queued i } } }
            ch .ok [BitVec.ofNat 16 (r.outq.length + 1)])

/-- SET RESERVE on Channel 0 writes the reserve floor, or with KEEP leaves it, and returns the floor, the free count and
how many buffers are in each other place. -/
def Obligations.SetReserveEffect : Prop :=
  ∀ (opts : Byte) (s : State), s.Ready .ch0 0x64 → s.BuffersOk →
    let s0 := s.served .ch0 0x64 opts
    let floor := (s.arg .ch0 0).toNat
    let count := fun p : Place → Bool => (allBuffers.filter fun b => p (s.buffer b).place).length
    let results := fun floor : Nat =>
      [BitVec.ofNat 16 floor, BitVec.ofNat 16 s.pool.free.length,
       BitVec.ofNat 16 (count (fun p => decide (p = .held .ch0)) + 256 * count (fun p => decide (p = .held .ch1))),
       BitVec.ofNat 16 (count Place.isQueued), BitVec.ofNat 16 (count fun p => decide (p = .reserved)),
       BitVec.ofNat 16 (s.port0.deliveryQueue.length + 256 * s.port1.deliveryQueue.length)]
    exec (.setReserve .ch0 opts) s = .next
      (if s0.option1 .ch0 = true then s0.answer .ch0 .ok (results s.pool.reserveFloor)
      else if 8 < floor then s0.answer .ch0 .badArgument []
      else State.answer { s0 with pool := { s.pool with reserveFloor := floor } } .ch0 .ok (results floor))

/-- TAKE CHANGE takes the head of the channel's Change List: it returns the record's handle, reasons, counts, state
and cause, and clears reasons and counts; a RETIRED record becomes FREE, its slot joins the tail of the Free Slot
List, and the DEFERRED candidates are retried; an admission wakes a Trunk Engine waiting in IDLE (R83; that the choice
is made within the command is log entry 24). -/
def Obligations.TakeChangeEffect : Prop :=
  ∀ (ch : Channel) (opts : Byte) (s : State), s.Ready ch 0x70 →
    let s0 := s.served ch 0x70 opts
    ((s.port ch).changeList = [] → exec (.takeChange ch opts) s = .next (s0.answer ch .empty []))
    ∧ ∀ i rest r, (s.port ch).changeList = i :: rest → s.record i = some r → r.delivered ≤ 255 → r.undelivered ≤ 255 →
      let s1 := s0.setPort ch { s0.port ch with changeList := rest }
      let results := fun admitted : Nat =>
        [(s.slot i).gen ++ BitVec.ofNat 8 i.val, r.reasons.setWidth 16,
         BitVec.ofNat 16 (r.delivered + 256 * r.undelivered),
         BitVec.ofNat 16 (r.state.code
           + 256 * if r.state = .retiring ∨ r.state = .retired then causeCode r.retireCause else 0),
         BitVec.ofNat 16 rest.length, BitVec.ofNat 16 admitted]
      (r.state ≠ .retired →
        exec (.takeChange ch opts) s = .next
          ((s1.setRecord i (some { r with reasons := 0, delivered := 0, undelivered := 0 })).answer ch .ok (results 0)))
      ∧ (r.state = .retired →
        let s2 : State := { s1 with registry := { s.registry with
          slots := s.registry.slots.set i { s.slot i with record := none }
          freeSlots := s.registry.freeSlots ++ [i] } }
        let s3 := s2.retryDeferred
        exec (.takeChange ch opts) s = .next
          ((if s3.2 = 0 then s3.1 else s3.1.wake).answer ch .ok (results s3.2)))

/-- RESET REGISTRY on Channel 0 empties the registry and its collections, keeping generations and settings, and
discards a command of Channel 1 that is PENDING or EXECUTING with ABORTED. The contents of the buffers are kept, but
that of a DATA being received the payload bytes that had arrived are in the buffer reserved for it (R70; which bytes had
arrived is log entry 9). What else waits on trunk data in is the sender's and stays (log entry 22). -/
def Obligations.ResetRegistryEffect : Prop :=
  ∀ (opts : Byte) (s : State), s.Ready .ch0 0x7F →
    ∃ t, exec (.resetRegistry .ch0 opts) s = .next t
      ∧ (∀ i, (t.slot i).gen = (s.slot i).gen ∧ t.record i = none) ∧ (∀ a, t.lookup a = none)
      ∧ t.registry.freeSlots.map Fin.val = List.range 64
      ∧ t.registry.admitQueue = [] ∧ t.registry.dismissQueue = []
      ∧ t.poll = { ring := [], cursor := 0, pollIssued := false, idle := none, passCount := 0
                   countdown := s.adm.interval, invitePending := false, slowDivisor := s.poll.slowDivisor }
      ∧ t.trunk = { line := .off, current := none, frame := [], receiving := false, hunt := Hunt.start
                    lineIn := s.trunk.lineIn, replyIn := t.trunk.replyIn, txTimer := none, replyTimer := none
                    guardTimer := none, faultRun := 0, faultDue := false, drain := none
                    health := s.trunk.health, config := s.trunk.config, counters := ⟨0, 0, 0, 0, 0, 0, 0, 0⟩ }
      ∧ t.adm = { s.adm with candidates := [], nextPartition := 0 }
      ∧ t.pool.free.map Fin.val = List.range 32 ∧ t.pool.reserveFloor = s.pool.reserveFloor
      ∧ (∀ b, t.buffer b = { length := (s.buffer b).length, place := .free })
      ∧ (s.trunk.receiving = false ∨ (∀ x, s.trunk.current = some x → x.reserved = none) →
          t.pool.mem = s.pool.mem ∧ t.trunk.replyIn = s.trunk.replyIn)
      ∧ (∀ x b, s.trunk.current = some x → x.reserved = some b → s.trunk.receiving = true →
          t.trunk.replyIn = s.trunk.replyIn.tail
          ∧ (Memory.wf s.pool.mem = true →
            Wrote s.pool.mem t.pool.mem (128 * b.val) (dataPayloadTaken (s.trunk.replyIn.headD []) true)))
      ∧ t.port0 = { s.port0.atTake 0x7F opts with
          state := .done, result := .ok, words := Vector.replicate 6 0, done := true, window := false
          overrun := false, changeList := [], deliveryQueue := [] }
      ∧ t.port1 =
        (let p := { s.port1 with
          done := false, window := false, overrun := false, changeList := [], deliveryQueue := [] }
        match p.state with
        | .pending | .executing =>
          { p with state := .done, result := .aborted, words := Vector.replicate 6 0, done := true }
        | .idle | .done => p)
      ∧ t.lineCause = false ∧ t.servedLast = .ch0 ∧ t.resetIn = false ∧ t.pending = s.pending

/-! ### Exchanges on the trunk -/

/-- FRAME_SENT opens the window of a POLL, DATA, ADMIT or INVITE: AWAITING, with the reply timeout or the join window to
run. REPLY_FIRST_SPACE_BIT begins a reception while a window is open, and stops the reply timer of all but INVITE, whose
window runs on (log entry 7).
DISMISS_SENT: the record leaves the Dismissal Queue and, no longer held nor waiting, enters RETIRED; the guard
starts. -/
def Obligations.FramesSentAndReceptionsBegun : Prop :=
  (∀ (s : State) (x : Exchange), s.resetIn = false → s.trunk.current = some x → x.kind ≠ .dismiss →
    (s.trunk.line = .sending →
      exec .frameSent s = .next { s with trunk := { s.trunk with
        line := .awaiting, frame := [], receiving := false, txTimer := none
        replyTimer := some (18432 * if x.kind = .invite then s.trunk.config.joinWindow
          else s.trunk.config.replyTimeout) } })
    ∧ (s.trunk.line = .awaiting → s.windowOpen = true →
      exec .replyFirstSpaceBit s = .next { s with trunk := { s.trunk with
        receiving := true, replyTimer := if x.kind = .invite then s.trunk.replyTimer else none } }))
  ∧ ∀ (s : State) (h : Handle) (r : Record) (x : Exchange), s.resetIn = false → s.trunk.line = .sending →
    s.trunk.current = some x → x.kind = .dismiss → x.target = some h → s.record h.slot = some r → r.state = .retiring →
    exec .dismissSent s = .next
      ((State.enterRetired
        { s with
          registry := { s.registry with
            slots := s.registry.slots.set h.slot
              { s.slot h.slot with record := some { r with dismissPending := some false } }
            dismissQueue := s.registry.dismissQueue.erase h.slot }
          trunk := { s.trunk with current := some x.released } } h.slot).toGuard)

/-- A reply to POLL or DATA that is judged valid, from a member: what it applies is said by `Replied`; a LEAVE then
retires the record, released, with cause LEFT; the guard starts. That the reserved buffer of a DATA that is not
delivered has its length of before is R161 and R156, and how R70 is read beside them is log entry 11. -/
def Obligations.ValidReplyFromMember : Prop :=
  ∀ (s : State) (bytes : List Byte) (h : Handle) (r : Record) (x : Exchange) (v : Reply),
    s.resetIn = false → s.trunk.line = .awaiting → s.windowOpen = true → s.trunk.current = some x →
    (x.kind = .poll ∨ x.kind = .data) → x.target = some h → s.record h.slot = some r → r.state.isMember = true →
    judge x.kind s.expectedAddress (receive bytes false) = .valid v →
    Memory.wf s.pool.mem = true → r.outq.Nodup → (∀ b, x.outbound = some b → b ∈ r.outq) →
    ∃ u, Replied s u h.slot r x v (dataPayloadTaken bytes false)
      ∧ exec (.replyReceived bytes) s =
        .next (if v.kind = .leave then (u.enterRetirement h.slot .left false).toGuard else u.toGuard)

/-- A miss in POLL or DATA to a member, by timeout or by an invalid reply: what it applies is said by `Missed`, with the
line error counter of the miss; a SILENT record at the lost limit is then retired with cause LOST; the guard starts. -/
def Obligations.MissByMember : Prop :=
  ∀ (s : State) (h : Handle) (r : Record) (x : Exchange),
    s.resetIn = false → s.trunk.line = .awaiting → s.trunk.current = some x →
    (x.kind = .poll ∨ x.kind = .data) → x.target = some h → s.record h.slot = some r → r.state.isMember = true →
    Memory.wf s.pool.mem = true → r.outq.Nodup → (∀ b, x.outbound = some b → b ∈ r.outq) →
    let ends := fun u : State =>
      if r.lostBy s.trunk.health = true then (u.enterRetirement h.slot .lost false).toGuard else u.toGuard
    let n := s.trunk.counters
    (s.trunk.receiving = false →
      ∃ u, Missed s u h.slot r x ∧ u.pool.mem = s.pool.mem
        ∧ u.trunk.counters = { n with timeout := min 65535 (n.timeout + 1) }
        ∧ exec .replyTimeout s = .next (ends u))
    ∧ ∀ bytes e, s.windowOpen = true → judge x.kind s.expectedAddress (receive bytes false) = .invalid e →
      ∃ u, Missed s u h.slot r x
        ∧ (match x.reserved with
          | some b => Wrote s.pool.mem u.pool.mem (128 * b.val) (dataPayloadTaken bytes false)
          | none => u.pool.mem = s.pool.mem)
        ∧ u.trunk.counters =
          (match e with
            | .opening | .format => { n with format := min 65535 (n.format + 1) }
            | .check => { n with check := min 65535 (n.check + 1) }
            | .stray => { n with stray := min 65535 (n.stray + 1) }
            | .unexpected => { n with unexpected := min 65535 (n.unexpected + 1) })
        ∧ exec (.replyReceived bytes) s = .next (ends u)

/-- The outcome of ADMIT: a valid IDLE confirms the record; a timeout or an invalid reply, counted under its name (a
HOLD, DATA or LEAVE as UNEXPECTED), is a failed attempt: the first two send the record to the tail of the Admit Queue,
and the third retires it with cause ADMIT_FAILED. -/
def Obligations.AdmitOutcome : Prop :=
  ∀ (s : State) (h : Handle) (r : Record) (x : Exchange),
    s.resetIn = false → s.trunk.line = .awaiting → s.trunk.current = some x → x.kind = .admitExchange → x.reserved = none →
    x.target = some h → s.record h.slot = some r → r.state = .admitting →
    let i := h.slot
    (∀ bytes v, s.windowOpen = true → judge .admitExchange s.expectedAddress (receive bytes false) = .valid v →
      exec (.replyReceived bytes) s = .next
        (State.toGuard (State.post { s with
          registry := { s.registry with
            slots := s.registry.slots.set i { s.slot i with record := some { r with
              state := .active, admitAttempts := none, skip := some 0, missCount := some 0, sendSeq := 0, recvSeq := 0
              replies := min 65535 (r.replies + 1) } }
            admitQueue := s.registry.admitQueue.erase i }
          poll := { s.poll with ring := s.poll.ring ++ [i] }
          trunk := { s.trunk with faultRun := 0, current := some x.released } } i .admitted)))
    ∧ let attempts := r.admitAttempts.getD 0 + 1
      let n := s.trunk.counters
      let failed := fun counted : Counters =>
        let s1 : State := { s with
          registry := { s.registry with
            slots := s.registry.slots.set i { s.slot i with record := some { r with admitAttempts := some attempts } } }
          trunk := { s.trunk with
            faultRun := min 255 (s.trunk.faultRun + 1)
            faultDue := s.trunk.faultDue || decide (s.trunk.health.faultThreshold ≤ min 255 (s.trunk.faultRun + 1))
            counters := counted
            current := some x.released } }
        if attempts < 3 then
          State.toGuard { s1 with registry := { s1.registry with
            admitQueue := s.registry.admitQueue.erase i ++ [i] } }
        else (s1.enterRetirement i .admitFailed false).toGuard
      (s.trunk.receiving = false →
        exec .replyTimeout s = .next (failed { n with timeout := min 65535 (n.timeout + 1) }))
      ∧ ∀ bytes e, s.windowOpen = true →
        judge .admitExchange s.expectedAddress (receive bytes false) = .invalid e →
        exec (.replyReceived bytes) s = .next (failed
          (match e with
            | .opening | .format => { n with format := min 65535 (n.format + 1) }
            | .check => { n with check := min 65535 (n.check + 1) }
            | .stray => { n with stray := min 65535 (n.stray + 1) }
            | .unexpected => { n with unexpected := min 65535 (n.unexpected + 1) }))

/-- A reply or a timeout of a POLL, DATA or ADMIT whose target is RETIRING counts for the fault run and the line error
counters as any other, a DATA out of sequence as UNEXPECTED (log entry 29), and a DATA's payload is in the reserved
buffer. Nothing else is applied to the record: the reserved buffer, its length that of before (log entry 11), and then
the carried one join the free buffer list, UNDELIVERED is posted for the carried one, and the record, released, enters
RETIRED unless its dismissal is pending; the guard starts. -/
def Obligations.RetiringTargetOutcome : Prop :=
  ∀ (s : State) (h : Handle) (r : Record) (x : Exchange),
    s.resetIn = false → s.trunk.line = .awaiting → s.trunk.current = some x → x.target = some h →
    s.record h.slot = some r → r.state = .retiring → Memory.wf s.pool.mem = true →
    ((x.kind = .poll ∨ x.kind = .data) ∧ r.outq = x.outbound.toList
      ∨ x.kind = .admitExchange ∧ x.reserved = none ∧ x.outbound = none) →
    let n := s.trunk.counters
    let freed := fun (u : State) (b : BufNo) => { u with pool := { u.pool with
      buffers := u.pool.buffers.set b { length := (s.buffer b).length, place := .free }, free := u.pool.free ++ [b] } }
    let settled := fun u : State =>
      let s1 := match x.reserved with
        | some b => freed u b
        | none => u
      let s2 := match x.outbound with
        | some b => (freed (s1.setRecord h.slot (some { r with outq := [], headAttempts := none })) b).post h.slot
            .undelivered
        | none => s1
      let s3 := { s2 with trunk := { s2.trunk with current := some x.released } }
      (if r.dismissPending = some false then s3.enterRetired h.slot else s3).toGuard
    let missed := fun (counted : Counters) (mem : List Host.Cell) => { s with
      pool := { s.pool with mem := mem }
      trunk := { s.trunk with
        faultRun := min 255 (s.trunk.faultRun + 1)
        faultDue := s.trunk.faultDue || decide (s.trunk.health.faultThreshold ≤ min 255 (s.trunk.faultRun + 1))
        counters := counted } }
    let took := fun (bytes : List Byte) (mem : List Host.Cell) =>
      match x.reserved with
      | some b => Wrote s.pool.mem mem (128 * b.val) (dataPayloadTaken bytes false)
      | none => mem = s.pool.mem
    (s.trunk.receiving = false →
      exec .replyTimeout s = .next
        (settled (missed { n with timeout := min 65535 (n.timeout + 1) } s.pool.mem)))
    ∧ ∀ bytes, s.windowOpen = true → ∃ mem, took bytes mem
      ∧ exec (.replyReceived bytes) s = .next
        (match judge x.kind s.expectedAddress (receive bytes false) with
          | .invalid e =>
            settled (missed
              (match e with
                | .opening | .format => { n with format := min 65535 (n.format + 1) }
                | .check => { n with check := min 65535 (n.check + 1) }
                | .stray => { n with stray := min 65535 (n.stray + 1) }
                | .unexpected => { n with unexpected := min 65535 (n.unexpected + 1) }) mem)
          | .valid v =>
            settled { s with
              pool := { s.pool with mem := mem }
              trunk := { s.trunk with
                faultRun := 0
                counters :=
                  match v.kind with
                  | .data _ =>
                    if v.ns = r.recvSeq ∨ v.ns = r.recvSeq - 1 then n
                    else { n with unexpected := min 65535 (n.unexpected + 1) }
                  | .idle | .hold _ | .join _ | .leave => n } })

/-- The join window of an INVITE: a valid JOIN ends it, clears the fault run, steps the lapses and is evaluated; an
invalid frame is counted, as JOIN COLLISION for a failed opening or check, and the window goes on unless it has run
out; its end without a JOIN steps the lapses; an expiry during a frame is noted, and the window ends with that frame
(log entry 8). The lapses: each candidate's steps but that of the one heard; a lapse at or above the limit then
removes its candidate, the one heard too where a lowered limit finds it there; and the lapse of the one heard becomes 0. -/
def Obligations.JoinWindowOutcomes : Prop :=
  ∀ (s : State) (x : Exchange), s.resetIn = false → s.trunk.line = .awaiting → s.trunk.current = some x →
    x.kind = .invite →
    let n := s.trunk.counters
    let verdict := fun bytes => judge .invite (fun a => decide (a = 0)) (receive bytes false)
    let lapsed := fun (u : State) (heard : Option (List Byte)) => { u with adm := { u.adm with
      candidates :=
        ((u.adm.candidates.map fun c => { c with lapse := if heard = some c.identity then c.lapse else c.lapse + 1 }).filter
          fun c => c.lapse < u.adm.lapseLimit).map
            fun c => { c with lapse := if heard = some c.identity then 0 else c.lapse } } }
    (∀ bytes v identity, s.windowOpen = true → verdict bytes = .valid v → v.kind = .join identity →
      exec (.joinFrame bytes) s = .next
        (State.evaluateJoin (lapsed { s with trunk := { s.trunk with faultRun := 0 } } (some identity))
          identity).toGuard)
    ∧ (∀ bytes e, s.windowOpen = true → verdict bytes = .invalid e →
      let s1 : State := { s with trunk := { s.trunk with
        counters :=
          match e with
          | .opening | .check => { n with joinCollision := min 65535 (n.joinCollision + 1) }
          | .format => { n with format := min 65535 (n.format + 1) }
          | .stray => { n with stray := min 65535 (n.stray + 1) }
          | .unexpected => { n with unexpected := min 65535 (n.unexpected + 1) } } }
      exec (.joinFrame bytes) s = .next
        (if s.trunk.replyTimer = some 0 then (lapsed s1 none).toGuard
        else { s1 with trunk := { s1.trunk with receiving := false } }))
    ∧ (s.trunk.receiving = false → exec .joinWindowExpiry s = .next (lapsed s none).toGuard)
    ∧ (s.trunk.receiving = true →
      exec .joinWindowExpiry s = .next { s with trunk := { s.trunk with replyTimer := some 0 } })

/-- A JOIN is judged by the first case that applies: a candidate's identity, retried if DEFERRED; an ADMITTING or
RETIRING record's, discarded; a member's, a rejoin; else the first enabled filter that matches decides, and without
one it becomes an UNDECIDED candidate. An identity matches a filter when it is long enough and agrees with the pattern
at every compared position below the minimum length. -/
def Obligations.JoinEvaluationCases : Prop :=
  (∀ (s : State) (identity : List Byte),
    let attemptOr := fun (u : State) (cls : Machine.Class) (owner : Channel) =>
      (u.attempt identity cls owner).getD (u.addCandidate identity (.deferred cls owner))
    (∀ c, s.adm.candidates.find? (fun c => decide (c.identity = identity)) = some c →
      s.evaluateJoin identity =
        match c.disposition with
        | .undecided => s
        | .deferred cls owner => (s.attempt identity cls owner).getD s)
    ∧ ((∀ c ∈ s.adm.candidates, c.identity ≠ identity) →
      (∀ i r, s.findIdentity identity = some i → s.record i = some r →
        s.evaluateJoin identity =
          if r.state.isMember = true then attemptOr (s.enterRetirement i .rejoined false) r.cls r.owner else s)
      ∧ (s.findIdentity identity = none →
        (∀ n : Fin 8, s.adm.filters[n].enabled = true → s.adm.filters[n].matchesId identity = true →
          (∀ m < n, ¬ (s.adm.filters[m].enabled = true ∧ s.adm.filters[m].matchesId identity = true)) →
          s.evaluateJoin identity =
            match s.adm.filters[n].action with
            | .admitIt => attemptOr s s.adm.filters[n].cls s.adm.filters[n].owner
            | .refuse => { s with trunk := { s.trunk with counters := { s.trunk.counters with
                refusedJoin := min 65535 (s.trunk.counters.refusedJoin + 1) } } })
        ∧ ((∀ n : Fin 8, ¬ (s.adm.filters[n].enabled = true ∧ s.adm.filters[n].matchesId identity = true)) →
          s.evaluateJoin identity = s.addCandidate identity .undecided))))
  ∧ ∀ (f : Filter) (identity : List Byte), f.minLength ≤ 16 →
    (f.matchesId identity = true ↔
      f.minLength ≤ identity.length
        ∧ ∀ n : Fin 16, n.val < f.minLength → f.compare.getLsbD n.val = true →
          identity.getD n.val 0 = f.pattern[n])

/-- A new candidate joins the tail with lapse 0 and a ticket that no entry holds: the first from the ticket counter on,
which then stands one past it. A full list discards the JOIN and counts CANDIDATE OVERFLOW. -/
def Obligations.NewCandidateTicket : Prop :=
  ∀ (s : State) (identity : List Byte) (d : Disposition),
    (s.adm.candidates.length < 8 →
      ∃ k : Nat, k ≤ 8
        ∧ (∀ c ∈ s.adm.candidates, c.ticket ≠ s.adm.ticket + BitVec.ofNat 8 k)
        ∧ (∀ j < k, ∃ c ∈ s.adm.candidates, c.ticket = s.adm.ticket + BitVec.ofNat 8 j)
        ∧ s.addCandidate identity d = { s with adm := { s.adm with
            candidates := s.adm.candidates ++
              [{ ticket := s.adm.ticket + BitVec.ofNat 8 k, identity := identity, disposition := d, lapse := 0 }]
            ticket := s.adm.ticket + BitVec.ofNat 8 k + 1 } })
    ∧ (8 ≤ s.adm.candidates.length →
      s.addCandidate identity d = { s with trunk := { s.trunk with counters := { s.trunk.counters with
        candidateOverflow := min 65535 (s.trunk.counters.candidateOverflow + 1) } } })

/-- The allocator gives the lowest address of the allocation range that the Address Index does not map to a slot, and
none when every one is mapped. -/
def Obligations.AllocatorGivesLowestAddress : Prop :=
  ∀ s : State, s.adm.upper ≤ 254 →
    let free := fun a : Nat => s.adm.lower ≤ a ∧ a ≤ s.adm.upper ∧ s.lookup (BitVec.ofNat 8 a) = none
    (∀ a : Nat, free a → (∀ b < a, ¬ free b) → s.allocateAddress = some (BitVec.ofNat 8 a))
    ∧ ((∀ a, ¬ free a) → s.allocateAddress = none)

/-- An admission attempt takes the head of the Free Slot List and the allocator's address for an ADMITTING record at the
tail of the Admit Queue, and removes the identity's candidate; it fails, changing nothing, for want of either. The
DEFERRED candidates are retried in list order until one fails or none remains; with none DEFERRED nothing changes. -/
def Obligations.AdmissionAttemptAndRetries : Prop :=
  (∀ (s : State) (identity : List Byte) (cls : Machine.Class) (owner : Channel),
    s.attempt identity cls owner =
      match s.allocateAddress, s.registry.freeSlots with
      | some a, i :: rest =>
        some { s with
          registry := { s.registry with
            slots := s.registry.slots.set i
              { gen := (s.slot i).gen + 1
                record := some
                  { state := .admitting, address := a, identity := identity, cls := cls, owner := owner, skip := none
                    sendSeq := 0, recvSeq := 0, outq := [], headAttempts := none, missCount := none
                    failedProbes := none, hold := none, admitAttempts := some 0, retireCause := none
                    dismissPending := none, replies := 0, retransmissions := 0, reasons := 0, delivered := 0
                    undelivered := 0 } }
            addressIndex := s.registry.addressIndex.set a.toFin (some i)
            freeSlots := rest
            admitQueue := s.registry.admitQueue ++ [i] }
          adm := { s.adm with candidates := s.adm.candidates.filter fun c => c.identity ≠ identity } }
      | _, _ => none)
  ∧ (∀ s : State, s.retryDeferred = s.retryAmong s.adm.candidates)
  ∧ (∀ (s : State) (cs : List Candidate), (∀ c ∈ cs, c.disposition = .undecided) → s.retryAmong cs = (s, 0))
  ∧ ∀ (s : State) (before after : List Candidate) (c : Candidate) (cls : Machine.Class) (owner : Channel),
    (∀ b ∈ before, b.disposition = .undecided) → c.disposition = .deferred cls owner →
    (s.attempt c.identity cls owner = none → s.retryAmong (before ++ c :: after) = (s, 0))
    ∧ ∀ t, s.attempt c.identity cls owner = some t →
      s.retryAmong (before ++ c :: after) = ((t.retryAmong after).1, (t.retryAmong after).2 + 1)

/-- CLOCK_LOSS acts with the EXTERNAL source alone (log entry 3 for INTERNAL). It cuts a transmission short: a miss by
timeout for POLL, DATA and ADMIT, as REPLY_TIMEOUT makes it; the guard at once for INVITE; sent in full for DISMISS.
It truncates a reception: FORMAT counts, the payload of a DATA taken so far stays in the reserved buffer, and the
reply is a miss; in a join window the window goes on, or ends if it has expired meanwhile. The bytes carried are those
that had arrived; bytes of a reception that had ended are judged as they are (log entry 22). It drops a stray frame in
progress. Else it changes nothing (log entry 3). -/
def Obligations.ClockLossEffect : Prop :=
  ∀ (s : State) (bytes : List Byte), s.resetIn = false →
    let lost := s.trunk.config.clock = .external
    let n := s.trunk.counters
    let length := (bytes.getD 5 0).toNat
    let truncated := bytes.length < 2
      ∨ bytes.take 2 = [0x5A, 0xC3] ∧ (bytes.length < 6 ∨ length ≤ 120 ∧ bytes.length < 8 + length)
    (¬ lost → exec (.clockLoss bytes) s = .next s)
    ∧ (s.trunk.line = .off ∨ s.trunk.line = .awaiting ∧ s.trunk.receiving = false →
      exec (.clockLoss bytes) s = .next s)
    ∧ (lost → s.trunk.line = .idle ∨ s.trunk.line = .guard ∨ s.trunk.line = .fault →
      exec (.clockLoss bytes) s = .next
        (match s.trunk.hunt with
          | .seeking _ => s
          | .header _ _ | .discarding _ => { s with trunk := { s.trunk with hunt := .seeking 0xFFFF } }))
    ∧ ∀ x, lost → s.trunk.current = some x →
      (s.trunk.line = .sending →
        (x.kind = .poll ∨ x.kind = .data ∨ x.kind = .admitExchange → x.target.isSome = true →
          ∃ u, exec .replyTimeout { s with trunk := { s.trunk with line := .awaiting, receiving := false } } = .next u
            ∧ exec (.clockLoss bytes) s = .next u)
        ∧ (x.kind = .invite → exec (.clockLoss bytes) s = .next s.toGuard)
        ∧ (x.kind = .dismiss → exec (.clockLoss bytes) s = exec .dismissSent s))
      ∧ (s.trunk.line = .awaiting → s.trunk.receiving = true →
        (truncated → x.kind = .poll ∨ x.kind = .data ∨ x.kind = .admitExchange → x.target.isSome = true →
          Memory.wf s.pool.mem = true →
          ∃ mem u,
            (match x.reserved with
              | some b => Wrote s.pool.mem mem (128 * b.val)
                  (if 6 ≤ bytes.length ∧ (bytes.getD 3 0).toNat / 16 = 9 then (bytes.drop 6).take length else [])
              | none => mem = s.pool.mem)
            ∧ exec .replyTimeout
                { s with pool := { s.pool with mem := mem }, trunk := { s.trunk with receiving := false } } = .next u
            ∧ exec (.clockLoss bytes) s = .next { u with trunk := { u.trunk with
                counters := { n with format := min 65535 (n.format + 1) } } })
        ∧ (truncated → x.kind = .invite →
          let s1 : State := { s with trunk := { s.trunk with
            counters := { n with format := min 65535 (n.format + 1) } } }
          exec (.clockLoss bytes) s = .next
            (if s.trunk.replyTimer = some 0 then
              State.toGuard { s1 with adm := { s.adm with candidates := s.adm.candidates.filterMap fun c =>
                if s.adm.lapseLimit ≤ c.lapse + 1 then none else some { c with lapse := c.lapse + 1 } } }
            else { s1 with trunk := { s1.trunk with receiving := false } }))
        ∧ (¬ truncated → x.kind = .poll ∨ x.kind = .data ∨ x.kind = .admitExchange →
          exec (.clockLoss bytes) s = exec (.replyReceived bytes) s)
        ∧ (¬ truncated → x.kind = .invite → exec (.clockLoss bytes) s = exec (.joinFrame bytes) s))

/-- STRAY_FRAME in IDLE, GUARD and FAULT: each bit that waits for it is taken in turn. The receiver hunts for the
start mark at any alignment and counts STRAY when it recognises one; it then reads the header to the length byte and
discards payload and check, or ends there with a length above 120, and hunts again. In the other line states it hears
none of them. Where no bits wait the event is a whole stray frame, counted, unless one is in progress (log entry 22
for the bits, log entry 3). HOLD_EXPIRY ends a hold in its last clock period and posts HOLD_ENDED, in every line
state; no expiry follows from a time that a later HOLD replaced (log entries 4 and 26 for the time). IDLE_EXPIRY ends
the idle, and a Trunk Engine waiting in IDLE chooses again. -/
def Obligations.StrayHoldAndIdleEvents : Prop :=
  ∀ s : State, s.resetIn = false →
    let hunting := fun (u : State) (h : Hunt) => { u with trunk := { u.trunk with hunt := h } }
    let hears := fun (u : State) (b : Bool) =>
      match u.trunk.hunt with
      | .seeking last =>
        let now := BitVec.cons b (last.extractLsb' 1 15)
        if now = 0xC35A then
          { u with trunk := { u.trunk with
            hunt := .header 0 0
            counters := { u.trunk.counters with stray := min 65535 (u.trunk.counters.stray + 1) } } }
        else hunting u (.seeking now)
      | .header taken last =>
        let now := BitVec.cons b (last.extractLsb' 1 7)
        if taken < 31 then hunting u (.header (taken + 1) now)
        else if now.toNat ≤ 120 then hunting u (.discarding (8 * (now.toNat + 2)))
        else hunting u (.seeking 0xFFFF)
      | .discarding left => hunting u (if 1 < left then .discarding (left - 1) else .seeking 0xFFFF)
    let watches := s.trunk.line = .idle ∨ s.trunk.line = .guard ∨ s.trunk.line = .fault
    (∀ bits rest, s.trunk.lineIn = bits :: rest →
      let s1 : State := { s with trunk := { s.trunk with lineIn := rest } }
      exec .strayFrame s = .next (if watches then bits.foldl hears s1 else s1))
    ∧ (s.trunk.lineIn = [] → exec .strayFrame s = .next
      (match s.trunk.hunt with
        | .seeking _ =>
          if watches then
            { s with trunk := { s.trunk with
              hunt := .seeking 0xFFFF
              counters := { s.trunk.counters with stray := min 65535 (s.trunk.counters.stray + 1) } } }
          else s
        | .header _ _ | .discarding _ => s))
    ∧ (∀ i r t, s.record i = some r → r.hold = some t →
      exec (.holdExpiry i) s = .next
        (if t ≤ 25 then (s.setRecord i (some { r with hold := none })).post i .holdEnded else s))
    ∧ (s.poll.idle.isSome = true →
      let s1 : State := { s with poll := { s.poll with idle := none } }
      exec .idleExpiry s = .next (if s.trunk.line = .idle then s1.choose else s1))

/-- The turnaround guard: the line is GUARD for the guard time, the exchange stands with its target released.
GUARD_EXPIRY: a drain takes the line to OFF and completes its channel's command with DRAINED; else fault due takes it
to FAULT and sets the LINE cause; else it enters IDLE and the next exchange is chosen. -/
def Obligations.GuardStartsAndRunsOut : Prop :=
  (∀ s : State, s.toGuard = { s with trunk := { s.trunk with
    line := .guard
    current := s.trunk.current.map Exchange.released
    frame := []
    receiving := false
    txTimer := none
    replyTimer := none
    guardTimer := some (s.trunk.config.guardTime * (16 * s.trunk.config.divisor * 25)) } })
  ∧ ∀ s : State, s.resetIn = false → s.trunk.line = .guard →
    exec .guardExpiry s = .next
      (match s.trunk.drain with
        | some d =>
          State.answer { s with trunk := { s.trunk with
              line := .off, current := none, frame := [], receiving := false, hunt := Hunt.start, txTimer := none
              replyTimer := none, guardTimer := none, faultDue := false, drain := none } }
            d.channel .ok [BitVec.ofNat 16 d.takenIn.code, 2]
        | none =>
          if s.trunk.faultDue = true then
            { s with
              trunk := { s.trunk with line := .fault, current := none, guardTimer := none, faultDue := false }
              lineCause := true }
          else State.choose { s with trunk := { s.trunk with line := .idle, current := none, guardTimer := none } })

/-! ### Operations the blocks share -/

/-- Posting a reason: it joins the record's set, DELIVERED and UNDELIVERED step their counts to 255 at most, and a set
that was empty puts the slot at the tail of the owner's Change List. A RETIRED record takes none. Each reason has the
bit that R199 gives it. -/
def Obligations.PostingAReason : Prop :=
  (∀ why : Reason, why.bit = match why with
    | .admitted => 0x001 | .silent => 0x002 | .recovered => 0x004 | .held => 0x008 | .holdEnded => 0x010
    | .delivered => 0x020 | .undelivered => 0x040 | .owner => 0x080 | .retired => 0x100)
  ∧ ∀ (s : State) (i : SlotNo) (r : Record) (why : Reason), s.record i = some r →
    (r.state = .retired → s.post i why = s)
    ∧ (r.state ≠ .retired →
      let s1 := s.setRecord i (some { r with
        reasons := r.reasons ||| why.bit
        delivered := if why = .delivered then min 255 (r.delivered + 1) else r.delivered
        undelivered := if why = .undelivered then min 255 (r.undelivered + 1) else r.undelivered })
      s.post i why =
        if r.reasons = 0 then
          s1.setPort r.owner { s.port r.owner with changeList := (s.port r.owner).changeList ++ [i] }
        else s1)

/-- Entering retirement, and then RETIRING or RETIRED: what becomes of the record, its buffers, the Ring, the queues,
the Address Index and the owner's Change List; the rest is unchanged. A RETIRING record enters RETIRED: its address
leaves the Address Index, dismiss pending becomes absent, and RETIRED is posted as its last reason. -/
def Obligations.RetirementEntered : Prop :=
  (∀ (s : State) (i : SlotNo) (r : Record) (cause : RetireCause) (dismiss : Bool), s.record i = some r →
    r.state ≠ .retiring → r.state ≠ .retired → r.outq.Nodup →
    let t := s.enterRetirement i cause dismiss
    let stays := s.holds i || dismiss
    let kept := r.outq.filter fun b => decide (s.carried i = some b)
    let gone := r.outq.filter fun b => decide (s.carried i ≠ some b)
    let r' : Record := { r with
      state := if stays then .retiring else .retired
      retireCause := some cause
      hold := none
      outq := kept
      headAttempts := if kept = [] then none else r.headAttempts
      skip := none
      missCount := none
      failedProbes := none
      admitAttempts := none
      dismissPending := if stays then some dismiss else none
      reasons := r.reasons ||| (if gone = [] then 0 else 0x040) ||| (if stays then 0 else 0x100)
      undelivered := if gone = [] then r.undelivered else min 255 (r.undelivered + gone.length) }
    t.registry = { s.registry with
      slots := s.registry.slots.set i { s.slot i with record := some r' }
      addressIndex := if stays then s.registry.addressIndex else s.registry.addressIndex.set r.address.toFin none
      admitQueue := if r.state = .admitting then s.registry.admitQueue.erase i else s.registry.admitQueue
      dismissQueue := if dismiss then s.registry.dismissQueue ++ [i] else s.registry.dismissQueue }
    ∧ t.poll = (if r.state.isMember = true ∧ i ∈ s.poll.ring then
        { s.poll with
          ring := s.poll.ring.erase i
          cursor := if s.poll.ring.idxOf i < s.poll.cursor then s.poll.cursor - 1 else s.poll.cursor }
      else s.poll)
    ∧ t.pool.free = s.pool.free ++ gone ∧ t.pool.mem = s.pool.mem ∧ t.pool.reserveFloor = s.pool.reserveFloor
    ∧ (∀ b, t.buffer b = if b ∈ gone then { s.buffer b with place := .free } else s.buffer b)
    ∧ t.port r.owner = { s.port r.owner with
        changeList := changeListAfter (s.port r.owner).changeList i r r' }
    ∧ t.port (otherChannel r.owner) = s.port (otherChannel r.owner)
    ∧ t.trunk = s.trunk ∧ t.adm = s.adm ∧ t.pending = s.pending ∧ t.resetIn = s.resetIn
    ∧ t.lineCause = s.lineCause ∧ t.servedLast = s.servedLast)
  ∧ ∀ (s : State) (i : SlotNo) (r : Record), s.record i = some r → r.state ≠ .retired →
    let r' : Record := { r with
      state := .retired, dismissPending := none, reasons := r.reasons ||| 0x100 }
    s.enterRetired i =
      { s.setPort r.owner { s.port r.owner with
          changeList := changeListAfter (s.port r.owner).changeList i r r' } with
        registry := { s.registry with
          slots := s.registry.slots.set i { s.slot i with record := some r' }
          addressIndex := s.registry.addressIndex.set r.address.toFin none } }

/-- The choice of the next exchange: the head of the Dismissal Queue, then of the Admit Queue, then a pending
invitation unless the Candidate List is full of UNDECIDED entries, then a member of the Ring, with the frame of each;
a passed pass starts the choice once more. What the reference clock measures of a transmission is all of it with the
INTERNAL source and its lead-in with the EXTERNAL (log entry 19); a stray frame in progress is dropped. An event that
wakes the Trunk Engine makes the choice in IDLE, and changes nothing in any other line state. -/
def Obligations.ChoiceOfTheNextExchange : Prop :=
  ∀ s : State,
    s.wake = (if s.trunk.line = .idle then s.choose else s)
    ∧
    let sends := fun (u : State) (x : Exchange) (frame : List Byte) => { u with trunk := { u.trunk with
      line := .sending, current := some x, frame := frame, receiving := false, hunt := Hunt.start
      txTimer := some ((if u.trunk.config.clock = .internal then 8 + 8 * frame.length else 8)
        * (16 * u.trunk.config.divisor * 25))
      replyTimer := none, guardTimer := none } }
    let full := 8 ≤ s.adm.candidates.length ∧ ∀ c ∈ s.adm.candidates, c.disposition = .undecided
    let none4 := s.registry.dismissQueue = [] ∧ s.registry.admitQueue = []
      ∧ ¬ (s.poll.invitePending = true ∧ ¬ full)
    (∀ i rest r, s.registry.dismissQueue = i :: rest → s.record i = some r →
      s.choose = sends s ⟨.dismiss, some (s.handle i), none, none, none⟩ (frameBytes r.address 5 0 0 []))
    ∧ (∀ i rest r, s.registry.dismissQueue = [] → s.registry.admitQueue = i :: rest → s.record i = some r →
      s.choose = sends s ⟨.admitExchange, some (s.handle i), none, none, none⟩
        (frameBytes 0 4 0 0 (r.address :: r.identity)))
    ∧ (s.registry.dismissQueue = [] → s.registry.admitQueue = [] → s.poll.invitePending = true → ¬ full →
      s.choose = sends { s with
          poll := { s.poll with invitePending := false }
          adm := { s.adm with nextPartition := (s.adm.nextPartition + 1) % 2 ^ s.adm.width } }
        ⟨.invite, none, none, none, none⟩
        (frameBytes 255 3 0 0 [BitVec.ofNat 8 s.adm.width, BitVec.ofNat 8 s.adm.nextPartition]))
    ∧ (none4 → ∀ t, s.requestMember = (t, .idle) → s.choose = t)
    ∧ (none4 → ∀ t, s.requestMember = (t, .passEnded) → s.choose = t.chooseWith id)
    ∧ (none4 → ∀ t i r, s.requestMember = (t, .slot i) → t.record i = some r →
      let room : BitVec 4 := if t.pool.free = [] then 1 else 0
      let sequence : Byte := BitVec.ofNat 8 (16 * r.sendSeq.toNat + r.recvSeq.toNat)
      let t1 : State := match t.pool.free with
        | [] => t
        | b :: rest => { t with pool := { t.pool with
            free := rest, buffers := t.pool.buffers.set b { t.buffer b with place := .reserved } } }
      s.choose =
        match r.outq, r.hold with
        | b :: _, none =>
          sends t1 ⟨.data, some (t.handle i), some r.sendSeq, some b, t.pool.free.head?⟩
            (frameBytes r.address 2 room sequence (t.bufferBytes b (t.buffer b).length))
        | _, _ =>
          sends t1 ⟨.poll, some (t.handle i), some r.sendSeq, none, t.pool.free.head?⟩
            (frameBytes r.address 1 room sequence []))

/-- A request for a member: nothing during an idle; a pass end when the cursor stands at the Ring's end; else a visit,
which ends the request with the member if it is due, and goes on from the next one if it is not. A pass end: cursor 0,
the pass count stepped modulo 65536, an idle of one quantum when no poll was issued, poll issued no, and the invite
countdown stepped: at interval 0 it stays 0; else it decreases, and at 0 an invitation becomes pending and it is
loaded again. -/
def Obligations.RequestsAndPassEnds : Prop :=
  (∀ s : State,
    (s.poll.idle.isSome = true → s.requestMember = (s, .idle))
    ∧ (s.poll.idle = none → s.poll.ring.length ≤ s.poll.cursor →
      s.requestMember = (s.endPass, if s.poll.pollIssued then .passEnded else .idle))
    ∧ (s.poll.idle = none → ∀ i, s.poll.ring[s.poll.cursor]? = some i →
      let v := s.visit i
      (v.2 = true → s.requestMember =
        (if v.1.poll.cursor = s.poll.ring.length then v.1.endPass else v.1, .slot i))
      ∧ (v.2 = false → s.requestMember = v.1.requestMember)))
  ∧ ∀ s : State, (s.adm.interval = 0 → s.poll.countdown = 0) → (s.adm.interval ≠ 0 → 1 ≤ s.poll.countdown) →
    let reaches := s.adm.interval ≠ 0 ∧ s.poll.countdown = 1
    s.endPass = { s with poll := { s.poll with
      cursor := 0
      passCount := s.poll.passCount + 1
      idle := if s.poll.pollIssued then s.poll.idle else some 1843200
      pollIssued := false
      countdown := if reaches then s.adm.interval else s.poll.countdown - 1
      invitePending := if reaches then true else s.poll.invitePending } }

/-- A visit judges the member on its state, class and skip count, reloads or steps the skip count, advances the
cursor, and records a due member as a poll issued. -/
def Obligations.VisitOfAMember : Prop :=
  ∀ (s : State) (i : SlotNo) (r : Record), s.record i = some r →
    let visited := fun (due : Bool) (skip : Option Nat) =>
      let x : Slot := { s.slot i with record := some { r with skip := skip } }
      ({ s with
          registry := { s.registry with slots := s.registry.slots.set i x }
          poll := { s.poll with cursor := s.poll.cursor + 1, pollIssued := s.poll.pollIssued || due } }, due)
    (r.state = .suspended → s.visit i = visited false r.skip)
    ∧ (r.state = .active → r.cls = .fast → s.visit i = visited true (some 0))
    ∧ (r.state = .active → r.cls = .slow → r.skip = some 0 → s.visit i = visited true (some (s.poll.slowDivisor - 1)))
    ∧ (∀ k, r.state = .active → r.cls = .slow → r.skip = some (k + 1) → s.visit i = visited false (some k))
    ∧ (r.state = .silent → r.skip = some 0 → s.visit i = visited true (some 7))
    ∧ (∀ k, r.state = .silent → r.skip = some (k + 1) → s.visit i = visited false (some k))

/-! ### Frames -/

/-- A frame built by the part stands as R56 lays it out, is received to its end, passes its check, and gives back
every field it was built from. Reception of any bytes: a failed opening ends it, then a length above 120, and else the
first 8 + n bytes are the frame; past the bytes given the line rests at mark, and with the clock lost the frame is
truncated there. The payload taken into a reserved buffer is that of a DATA, so far as it was received, and nothing of
another kind. How the bytes given stand for the line is log entry 6, and with the clock lost 22. -/
def Obligations.FrameRoundTrip : Prop :=
  (∀ (address : Byte) (code flags : BitVec 4) (ns nr : BitVec 3) (payload : List Byte), payload.length ≤ 120 →
    let frame := frameBytes address code flags (seqByte ns nr) payload
    let fields : List Byte :=
      [address, code ++ flags, (0 : BitVec 1) ++ ns ++ (0 : BitVec 1) ++ nr, BitVec.ofNat 8 payload.length] ++ payload
    frame = [0x5A, 0xC3] ++ fields ++ [(crc fields).extractLsb' 8 8, (crc fields).extractLsb' 0 8]
    ∧ frame.length = 8 + payload.length
    ∧ receive frame false = .whole frame
    ∧ receive frame true = .whole frame
    ∧ checkPasses frame = true
    ∧ frameByte frame 2 = address
    ∧ frameKind frame = code.toNat
    ∧ (frameByte frame 3).extractLsb' 0 4 = flags
    ∧ frameNS frame = ns
    ∧ frameNR frame = nr
    ∧ framePayload frame = payload)
  ∧ ∀ bytes : List Byte,
    let heard := fun k => bytes.getD k 0xFF
    let opened := heard 0 = 0x5A ∧ heard 1 = 0xC3
    let n := (heard 5).toNat
    let isData := (heard 3).toNat / 16 = 9
    receive bytes false =
      (if ¬ opened then .badOpening
      else if 120 < n then .tooLong
      else .whole ((List.range (8 + n)).map heard))
    ∧ receive bytes true =
      (if bytes.length < 2 then .truncated
      else if ¬ opened then .badOpening
      else if bytes.length < 6 then .truncated
      else if 120 < n then .tooLong
      else if bytes.length < 8 + n then .truncated
      else .whole (bytes.take (8 + n)))
    ∧ dataPayloadTaken bytes false =
      (if opened ∧ n ≤ 120 ∧ isData then (List.range n).map fun k => heard (6 + k) else [])
    ∧ dataPayloadTaken bytes true =
      (if 6 ≤ bytes.length ∧ opened ∧ n ≤ 120 ∧ isData then (bytes.drop 6).take n else [])

/-- The order of judgement of a received frame: opening, end of reception, check, format, address, kind; the first
that fails names the error, and a frame that passes all is valid. The tables it reads: the check bytes; the kind codes
and lengths that pass FORMAT (codes 1 to 5 with any length is log entry 12); the reply of each kind code, with the
hold value in the low 12 bits of its payload; and the reply kinds each exchange allows. -/
def Obligations.VerdictOrder : Prop :=
  (∀ (kind : ExchangeKind) (expected : Byte → Bool) (frame : List Byte),
    let verdict := judge kind expected (.whole frame)
    let checked := checkPasses frame = true
    let formed := formatPasses ((frame.getD 3 0).toNat / 16) (frame.getD 5 0).toNat = true
    let addressed := expected (frame.getD 2 0) = true
    judge kind expected .badOpening = .invalid .opening
    ∧ judge kind expected .tooLong = .invalid .format
    ∧ judge kind expected .truncated = .invalid .format
    ∧ (¬ checked → verdict = .invalid .check)
    ∧ (checked → ¬ formed → verdict = .invalid .format)
    ∧ (checked → formed → ¬ addressed → verdict = .invalid .stray)
    ∧ (checked → formed → addressed → (∀ k, replyOf frame = some k → allows kind k = false) →
      verdict = .invalid .unexpected)
    ∧ ∀ k, checked → formed → addressed → replyOf frame = some k → allows kind k = true →
      verdict = .valid
        { kind := k, ns := (frame.getD 4 0).extractLsb' 4 3, nr := (frame.getD 4 0).extractLsb' 0 3 })
  ∧ (∀ frame : List Byte, let n := (frame.getD 5 0).toNat
    checkPasses frame = true ↔
      frame.getD (6 + n) 0 ++ frame.getD (7 + n) 0 = crc ((frame.drop 2).take (4 + n)))
  ∧ (∀ code n : Nat, formatPasses code n = true ↔
    (1 ≤ code ∧ code ≤ 5) ∨ (code = 8 ∧ n = 0) ∨ (code = 9 ∧ n ≤ 120) ∨ (code = 10 ∧ n = 2)
      ∨ (code = 11 ∧ 1 ≤ n ∧ n ≤ 16) ∨ (code = 12 ∧ n = 0))
  ∧ (∀ frame : List Byte,
    let code := (frame.getD 3 0).toNat / 16
    let payload := (frame.drop 6).take (frame.getD 5 0).toNat
    replyOf frame =
      if code = 8 then some .idle
      else if code = 9 then some (.data payload.length)
      else if code = 10 then some (.hold ((256 * (payload.getD 0 0).toNat + (payload.getD 1 0).toNat) % 4096))
      else if code = 11 then some (.join payload)
      else if code = 12 then some .leave
      else none)
  ∧ ∀ (kind : ExchangeKind) (k : ReplyKind), allows kind k = true ↔
    (kind = .poll ∨ kind = .data) ∧ (k = .idle ∨ (∃ n, k = .data n) ∨ (∃ v, k = .hold v) ∨ k = .leave)
      ∨ kind = .admitExchange ∧ k = .idle
      ∨ kind = .invite ∧ ∃ identity, k = .join identity

/-! ### Invariants -/

/-- The memory of the buffers keeps its canonical form.
Every setting and count outside the records stays in its range, and the tickets on the Candidate List distinct. -/
def Obligations.StepKeepsMemoryAndSettings : Prop :=
  (∀ s t : State, Memory.wf s.pool.mem = true → step s = .next t → Memory.wf t.pool.mem = true)
  ∧ ∀ s t : State, s.SettingsOk → step s = .next t → t.SettingsOk

/-- From a sound state every record stays as R2 allows it, every collection of the registry keeps exactly the records it
should, and the Current Exchange agrees with the line and its target. -/
def Obligations.StepKeepsRegistry : Prop :=
  ∀ s t : State, s.Sound → step s = .next t → t.RecordsOk ∧ t.RegistryOk ∧ t.ExchangeOk

/-- From a sound state every buffer stays in exactly one place, and EXECUTING between events stays the mark of a
drain. -/
def Obligations.StepKeepsBuffers : Prop :=
  ∀ s t : State, s.Sound → step s = .next t → t.BuffersOk ∧ t.DrainOk

/-- The state after a pin reset is sound, and so is the one held by reset in. -/
def Obligations.ResetIsSound : Prop :=
  State.reset.Sound ∧ ∀ s t : State, exec (.pinReset true) s = .next t → t.Sound

/-- A handle names one record: across a step from a sound state other than a pin reset, a slot's generation keeps its
value, and then a record that stands before and after keeps its identity and address and no record appears; or it steps
by one, and a new record stands in the slot. -/
def Obligations.HandleNamesOneRecord : Prop :=
  ∀ (s t : State), s.Sound → (∀ level rest, s.pending ≠ .pinReset level :: rest) → step s = .next t →
    ∀ i,
      ((t.slot i).gen = (s.slot i).gen
        ∧ (s.record i = none → t.record i = none)
        ∧ ∀ r r', s.record i = some r → t.record i = some r' → r'.identity = r.identity ∧ r'.address = r.address)
      ∨ ((t.slot i).gen = (s.slot i).gen + 1 ∧ (t.record i).isSome = true)
end

