-- ==== Sys2Proof/Laws/State.lean ====
section
/-! SUPPORT. What each update of the state leaves alone: one lemma per field per update, and the access operations over
each update. -/

namespace Sys2Proof.Machine

variable (s : State)

/-! ### setPort -/

@[simp] theorem State.setPort_pending (ch : Channel) (p : Port) : (s.setPort ch p).pending = s.pending := by
  cases ch <;> rfl
@[simp] theorem State.setPort_resetIn (ch : Channel) (p : Port) : (s.setPort ch p).resetIn = s.resetIn := by
  cases ch <;> rfl
@[simp] theorem State.setPort_registry (ch : Channel) (p : Port) : (s.setPort ch p).registry = s.registry := by
  cases ch <;> rfl
@[simp] theorem State.setPort_poll (ch : Channel) (p : Port) : (s.setPort ch p).poll = s.poll := by
  cases ch <;> rfl
@[simp] theorem State.setPort_trunk (ch : Channel) (p : Port) : (s.setPort ch p).trunk = s.trunk := by
  cases ch <;> rfl
@[simp] theorem State.setPort_adm (ch : Channel) (p : Port) : (s.setPort ch p).adm = s.adm := by
  cases ch <;> rfl
@[simp] theorem State.setPort_pool (ch : Channel) (p : Port) : (s.setPort ch p).pool = s.pool := by
  cases ch <;> rfl
@[simp] theorem State.setPort_lineCause (ch : Channel) (p : Port) : (s.setPort ch p).lineCause = s.lineCause := by
  cases ch <;> rfl
@[simp] theorem State.setPort_servedLast (ch : Channel) (p : Port) : (s.setPort ch p).servedLast = s.servedLast := by
  cases ch <;> rfl
@[simp] theorem State.setPort_slot (ch : Channel) (p : Port) (j : SlotNo) : (s.setPort ch p).slot j = s.slot j := by
  cases ch <;> rfl
@[simp] theorem State.setPort_record (ch : Channel) (p : Port) (j : SlotNo) : (s.setPort ch p).record j = s.record j := by
  cases ch <;> rfl
@[simp] theorem State.setPort_handle (ch : Channel) (p : Port) (j : SlotNo) : (s.setPort ch p).handle j = s.handle j := by
  cases ch <;> rfl
@[simp] theorem State.setPort_lookup (ch : Channel) (p : Port) (c : Byte) : (s.setPort ch p).lookup c = s.lookup c := by
  cases ch <;> rfl
@[simp] theorem State.setPort_holds (ch : Channel) (p : Port) (j : SlotNo) : (s.setPort ch p).holds j = s.holds j := by
  cases ch <;> rfl
@[simp] theorem State.setPort_carried (ch : Channel) (p : Port) (j : SlotNo) : (s.setPort ch p).carried j = s.carried j := by
  cases ch <;> rfl
@[simp] theorem State.setPort_buffer (ch : Channel) (p : Port) (c : BufNo) : (s.setPort ch p).buffer c = s.buffer c := by
  cases ch <;> rfl
@[simp] theorem State.setPort_bufferBytes (ch : Channel) (p : Port) (c : BufNo) (n : Nat) :
    (s.setPort ch p).bufferBytes c n = s.bufferBytes c n := by
  cases ch <;> rfl

/-! ### setSlot -/

@[simp] theorem State.setSlot_pending (i : SlotNo) (x : Slot) : (s.setSlot i x).pending = s.pending := rfl
@[simp] theorem State.setSlot_resetIn (i : SlotNo) (x : Slot) : (s.setSlot i x).resetIn = s.resetIn := rfl
@[simp] theorem State.setSlot_poll (i : SlotNo) (x : Slot) : (s.setSlot i x).poll = s.poll := rfl
@[simp] theorem State.setSlot_trunk (i : SlotNo) (x : Slot) : (s.setSlot i x).trunk = s.trunk := rfl
@[simp] theorem State.setSlot_adm (i : SlotNo) (x : Slot) : (s.setSlot i x).adm = s.adm := rfl
@[simp] theorem State.setSlot_pool (i : SlotNo) (x : Slot) : (s.setSlot i x).pool = s.pool := rfl
@[simp] theorem State.setSlot_port0 (i : SlotNo) (x : Slot) : (s.setSlot i x).port0 = s.port0 := rfl
@[simp] theorem State.setSlot_port1 (i : SlotNo) (x : Slot) : (s.setSlot i x).port1 = s.port1 := rfl
@[simp] theorem State.setSlot_lineCause (i : SlotNo) (x : Slot) : (s.setSlot i x).lineCause = s.lineCause := rfl
@[simp] theorem State.setSlot_servedLast (i : SlotNo) (x : Slot) : (s.setSlot i x).servedLast = s.servedLast := rfl
@[simp] theorem State.setSlot_port (i : SlotNo) (x : Slot) (c : Channel) : (s.setSlot i x).port c = s.port c := by
  cases c <;> rfl
@[simp] theorem State.setSlot_holds (i : SlotNo) (x : Slot) (j : SlotNo) : (s.setSlot i x).holds j = s.holds j := rfl
@[simp] theorem State.setSlot_carried (i : SlotNo) (x : Slot) (j : SlotNo) : (s.setSlot i x).carried j = s.carried j := rfl
@[simp] theorem State.setSlot_buffer (i : SlotNo) (x : Slot) (c : BufNo) : (s.setSlot i x).buffer c = s.buffer c := rfl
@[simp] theorem State.setSlot_bufferBytes (i : SlotNo) (x : Slot) (c : BufNo) (n : Nat) :
    (s.setSlot i x).bufferBytes c n = s.bufferBytes c n := rfl

/-! ### setRecord -/

@[simp] theorem State.setRecord_pending (i : SlotNo) (r : Option Record) : (s.setRecord i r).pending = s.pending := rfl
@[simp] theorem State.setRecord_resetIn (i : SlotNo) (r : Option Record) : (s.setRecord i r).resetIn = s.resetIn := rfl
@[simp] theorem State.setRecord_poll (i : SlotNo) (r : Option Record) : (s.setRecord i r).poll = s.poll := rfl
@[simp] theorem State.setRecord_trunk (i : SlotNo) (r : Option Record) : (s.setRecord i r).trunk = s.trunk := rfl
@[simp] theorem State.setRecord_adm (i : SlotNo) (r : Option Record) : (s.setRecord i r).adm = s.adm := rfl
@[simp] theorem State.setRecord_pool (i : SlotNo) (r : Option Record) : (s.setRecord i r).pool = s.pool := rfl
@[simp] theorem State.setRecord_port0 (i : SlotNo) (r : Option Record) : (s.setRecord i r).port0 = s.port0 := rfl
@[simp] theorem State.setRecord_port1 (i : SlotNo) (r : Option Record) : (s.setRecord i r).port1 = s.port1 := rfl
@[simp] theorem State.setRecord_lineCause (i : SlotNo) (r : Option Record) : (s.setRecord i r).lineCause = s.lineCause := rfl
@[simp] theorem State.setRecord_servedLast (i : SlotNo) (r : Option Record) : (s.setRecord i r).servedLast = s.servedLast := rfl
@[simp] theorem State.setRecord_port (i : SlotNo) (r : Option Record) (c : Channel) : (s.setRecord i r).port c = s.port c := by
  cases c <;> rfl
@[simp] theorem State.setRecord_holds (i : SlotNo) (r : Option Record) (j : SlotNo) : (s.setRecord i r).holds j = s.holds j := rfl
@[simp] theorem State.setRecord_carried (i : SlotNo) (r : Option Record) (j : SlotNo) : (s.setRecord i r).carried j = s.carried j := rfl
@[simp] theorem State.setRecord_buffer (i : SlotNo) (r : Option Record) (c : BufNo) : (s.setRecord i r).buffer c = s.buffer c := rfl
@[simp] theorem State.setRecord_bufferBytes (i : SlotNo) (r : Option Record) (c : BufNo) (n : Nat) :
    (s.setRecord i r).bufferBytes c n = s.bufferBytes c n := rfl

/-! ### setIndex -/

@[simp] theorem State.setIndex_pending (a : Byte) (e : Option SlotNo) : (s.setIndex a e).pending = s.pending := rfl
@[simp] theorem State.setIndex_resetIn (a : Byte) (e : Option SlotNo) : (s.setIndex a e).resetIn = s.resetIn := rfl
@[simp] theorem State.setIndex_poll (a : Byte) (e : Option SlotNo) : (s.setIndex a e).poll = s.poll := rfl
@[simp] theorem State.setIndex_trunk (a : Byte) (e : Option SlotNo) : (s.setIndex a e).trunk = s.trunk := rfl
@[simp] theorem State.setIndex_adm (a : Byte) (e : Option SlotNo) : (s.setIndex a e).adm = s.adm := rfl
@[simp] theorem State.setIndex_pool (a : Byte) (e : Option SlotNo) : (s.setIndex a e).pool = s.pool := rfl
@[simp] theorem State.setIndex_port0 (a : Byte) (e : Option SlotNo) : (s.setIndex a e).port0 = s.port0 := rfl
@[simp] theorem State.setIndex_port1 (a : Byte) (e : Option SlotNo) : (s.setIndex a e).port1 = s.port1 := rfl
@[simp] theorem State.setIndex_lineCause (a : Byte) (e : Option SlotNo) : (s.setIndex a e).lineCause = s.lineCause := rfl
@[simp] theorem State.setIndex_servedLast (a : Byte) (e : Option SlotNo) : (s.setIndex a e).servedLast = s.servedLast := rfl
@[simp] theorem State.setIndex_port (a : Byte) (e : Option SlotNo) (c : Channel) : (s.setIndex a e).port c = s.port c := by
  cases c <;> rfl
@[simp] theorem State.setIndex_holds (a : Byte) (e : Option SlotNo) (j : SlotNo) : (s.setIndex a e).holds j = s.holds j := rfl
@[simp] theorem State.setIndex_carried (a : Byte) (e : Option SlotNo) (j : SlotNo) : (s.setIndex a e).carried j = s.carried j := rfl
@[simp] theorem State.setIndex_buffer (a : Byte) (e : Option SlotNo) (c : BufNo) : (s.setIndex a e).buffer c = s.buffer c := rfl
@[simp] theorem State.setIndex_bufferBytes (a : Byte) (e : Option SlotNo) (c : BufNo) (n : Nat) :
    (s.setIndex a e).bufferBytes c n = s.bufferBytes c n := rfl

/-! ### removeAdmit -/

@[simp] theorem State.removeAdmit_pending (i : SlotNo) : (s.removeAdmit i).pending = s.pending := rfl
@[simp] theorem State.removeAdmit_resetIn (i : SlotNo) : (s.removeAdmit i).resetIn = s.resetIn := rfl
@[simp] theorem State.removeAdmit_poll (i : SlotNo) : (s.removeAdmit i).poll = s.poll := rfl
@[simp] theorem State.removeAdmit_trunk (i : SlotNo) : (s.removeAdmit i).trunk = s.trunk := rfl
@[simp] theorem State.removeAdmit_adm (i : SlotNo) : (s.removeAdmit i).adm = s.adm := rfl
@[simp] theorem State.removeAdmit_pool (i : SlotNo) : (s.removeAdmit i).pool = s.pool := rfl
@[simp] theorem State.removeAdmit_port0 (i : SlotNo) : (s.removeAdmit i).port0 = s.port0 := rfl
@[simp] theorem State.removeAdmit_port1 (i : SlotNo) : (s.removeAdmit i).port1 = s.port1 := rfl
@[simp] theorem State.removeAdmit_lineCause (i : SlotNo) : (s.removeAdmit i).lineCause = s.lineCause := rfl
@[simp] theorem State.removeAdmit_servedLast (i : SlotNo) : (s.removeAdmit i).servedLast = s.servedLast := rfl
@[simp] theorem State.removeAdmit_port (i : SlotNo) (c : Channel) : (s.removeAdmit i).port c = s.port c := by
  cases c <;> rfl
@[simp] theorem State.removeAdmit_holds (i : SlotNo) (j : SlotNo) : (s.removeAdmit i).holds j = s.holds j := rfl
@[simp] theorem State.removeAdmit_carried (i : SlotNo) (j : SlotNo) : (s.removeAdmit i).carried j = s.carried j := rfl
@[simp] theorem State.removeAdmit_buffer (i : SlotNo) (c : BufNo) : (s.removeAdmit i).buffer c = s.buffer c := rfl
@[simp] theorem State.removeAdmit_bufferBytes (i : SlotNo) (c : BufNo) (n : Nat) :
    (s.removeAdmit i).bufferBytes c n = s.bufferBytes c n := rfl

/-! ### joinAdmit -/

@[simp] theorem State.joinAdmit_pending (i : SlotNo) : (s.joinAdmit i).pending = s.pending := rfl
@[simp] theorem State.joinAdmit_resetIn (i : SlotNo) : (s.joinAdmit i).resetIn = s.resetIn := rfl
@[simp] theorem State.joinAdmit_poll (i : SlotNo) : (s.joinAdmit i).poll = s.poll := rfl
@[simp] theorem State.joinAdmit_trunk (i : SlotNo) : (s.joinAdmit i).trunk = s.trunk := rfl
@[simp] theorem State.joinAdmit_adm (i : SlotNo) : (s.joinAdmit i).adm = s.adm := rfl
@[simp] theorem State.joinAdmit_pool (i : SlotNo) : (s.joinAdmit i).pool = s.pool := rfl
@[simp] theorem State.joinAdmit_port0 (i : SlotNo) : (s.joinAdmit i).port0 = s.port0 := rfl
@[simp] theorem State.joinAdmit_port1 (i : SlotNo) : (s.joinAdmit i).port1 = s.port1 := rfl
@[simp] theorem State.joinAdmit_lineCause (i : SlotNo) : (s.joinAdmit i).lineCause = s.lineCause := rfl
@[simp] theorem State.joinAdmit_servedLast (i : SlotNo) : (s.joinAdmit i).servedLast = s.servedLast := rfl
@[simp] theorem State.joinAdmit_port (i : SlotNo) (c : Channel) : (s.joinAdmit i).port c = s.port c := by
  cases c <;> rfl
@[simp] theorem State.joinAdmit_holds (i : SlotNo) (j : SlotNo) : (s.joinAdmit i).holds j = s.holds j := rfl
@[simp] theorem State.joinAdmit_carried (i : SlotNo) (j : SlotNo) : (s.joinAdmit i).carried j = s.carried j := rfl
@[simp] theorem State.joinAdmit_buffer (i : SlotNo) (c : BufNo) : (s.joinAdmit i).buffer c = s.buffer c := rfl
@[simp] theorem State.joinAdmit_bufferBytes (i : SlotNo) (c : BufNo) (n : Nat) :
    (s.joinAdmit i).bufferBytes c n = s.bufferBytes c n := rfl

/-! ### removeDismiss -/

@[simp] theorem State.removeDismiss_pending (i : SlotNo) : (s.removeDismiss i).pending = s.pending := rfl
@[simp] theorem State.removeDismiss_resetIn (i : SlotNo) : (s.removeDismiss i).resetIn = s.resetIn := rfl
@[simp] theorem State.removeDismiss_poll (i : SlotNo) : (s.removeDismiss i).poll = s.poll := rfl
@[simp] theorem State.removeDismiss_trunk (i : SlotNo) : (s.removeDismiss i).trunk = s.trunk := rfl
@[simp] theorem State.removeDismiss_adm (i : SlotNo) : (s.removeDismiss i).adm = s.adm := rfl
@[simp] theorem State.removeDismiss_pool (i : SlotNo) : (s.removeDismiss i).pool = s.pool := rfl
@[simp] theorem State.removeDismiss_port0 (i : SlotNo) : (s.removeDismiss i).port0 = s.port0 := rfl
@[simp] theorem State.removeDismiss_port1 (i : SlotNo) : (s.removeDismiss i).port1 = s.port1 := rfl
@[simp] theorem State.removeDismiss_lineCause (i : SlotNo) : (s.removeDismiss i).lineCause = s.lineCause := rfl
@[simp] theorem State.removeDismiss_servedLast (i : SlotNo) : (s.removeDismiss i).servedLast = s.servedLast := rfl
@[simp] theorem State.removeDismiss_port (i : SlotNo) (c : Channel) : (s.removeDismiss i).port c = s.port c := by
  cases c <;> rfl
@[simp] theorem State.removeDismiss_holds (i : SlotNo) (j : SlotNo) : (s.removeDismiss i).holds j = s.holds j := rfl
@[simp] theorem State.removeDismiss_carried (i : SlotNo) (j : SlotNo) : (s.removeDismiss i).carried j = s.carried j := rfl
@[simp] theorem State.removeDismiss_buffer (i : SlotNo) (c : BufNo) : (s.removeDismiss i).buffer c = s.buffer c := rfl
@[simp] theorem State.removeDismiss_bufferBytes (i : SlotNo) (c : BufNo) (n : Nat) :
    (s.removeDismiss i).bufferBytes c n = s.bufferBytes c n := rfl

/-! ### joinDismiss -/

@[simp] theorem State.joinDismiss_pending (i : SlotNo) : (s.joinDismiss i).pending = s.pending := rfl
@[simp] theorem State.joinDismiss_resetIn (i : SlotNo) : (s.joinDismiss i).resetIn = s.resetIn := rfl
@[simp] theorem State.joinDismiss_poll (i : SlotNo) : (s.joinDismiss i).poll = s.poll := rfl
@[simp] theorem State.joinDismiss_trunk (i : SlotNo) : (s.joinDismiss i).trunk = s.trunk := rfl
@[simp] theorem State.joinDismiss_adm (i : SlotNo) : (s.joinDismiss i).adm = s.adm := rfl
@[simp] theorem State.joinDismiss_pool (i : SlotNo) : (s.joinDismiss i).pool = s.pool := rfl
@[simp] theorem State.joinDismiss_port0 (i : SlotNo) : (s.joinDismiss i).port0 = s.port0 := rfl
@[simp] theorem State.joinDismiss_port1 (i : SlotNo) : (s.joinDismiss i).port1 = s.port1 := rfl
@[simp] theorem State.joinDismiss_lineCause (i : SlotNo) : (s.joinDismiss i).lineCause = s.lineCause := rfl
@[simp] theorem State.joinDismiss_servedLast (i : SlotNo) : (s.joinDismiss i).servedLast = s.servedLast := rfl
@[simp] theorem State.joinDismiss_port (i : SlotNo) (c : Channel) : (s.joinDismiss i).port c = s.port c := by
  cases c <;> rfl
@[simp] theorem State.joinDismiss_holds (i : SlotNo) (j : SlotNo) : (s.joinDismiss i).holds j = s.holds j := rfl
@[simp] theorem State.joinDismiss_carried (i : SlotNo) (j : SlotNo) : (s.joinDismiss i).carried j = s.carried j := rfl
@[simp] theorem State.joinDismiss_buffer (i : SlotNo) (c : BufNo) : (s.joinDismiss i).buffer c = s.buffer c := rfl
@[simp] theorem State.joinDismiss_bufferBytes (i : SlotNo) (c : BufNo) (n : Nat) :
    (s.joinDismiss i).bufferBytes c n = s.bufferBytes c n := rfl

/-! ### setBuffer -/

@[simp] theorem State.setBuffer_pending (b : BufNo) (x : Buffer) : (s.setBuffer b x).pending = s.pending := rfl
@[simp] theorem State.setBuffer_resetIn (b : BufNo) (x : Buffer) : (s.setBuffer b x).resetIn = s.resetIn := rfl
@[simp] theorem State.setBuffer_registry (b : BufNo) (x : Buffer) : (s.setBuffer b x).registry = s.registry := rfl
@[simp] theorem State.setBuffer_poll (b : BufNo) (x : Buffer) : (s.setBuffer b x).poll = s.poll := rfl
@[simp] theorem State.setBuffer_trunk (b : BufNo) (x : Buffer) : (s.setBuffer b x).trunk = s.trunk := rfl
@[simp] theorem State.setBuffer_adm (b : BufNo) (x : Buffer) : (s.setBuffer b x).adm = s.adm := rfl
@[simp] theorem State.setBuffer_port0 (b : BufNo) (x : Buffer) : (s.setBuffer b x).port0 = s.port0 := rfl
@[simp] theorem State.setBuffer_port1 (b : BufNo) (x : Buffer) : (s.setBuffer b x).port1 = s.port1 := rfl
@[simp] theorem State.setBuffer_lineCause (b : BufNo) (x : Buffer) : (s.setBuffer b x).lineCause = s.lineCause := rfl
@[simp] theorem State.setBuffer_servedLast (b : BufNo) (x : Buffer) : (s.setBuffer b x).servedLast = s.servedLast := rfl
@[simp] theorem State.setBuffer_port (b : BufNo) (x : Buffer) (c : Channel) : (s.setBuffer b x).port c = s.port c := by
  cases c <;> rfl
@[simp] theorem State.setBuffer_slot (b : BufNo) (x : Buffer) (j : SlotNo) : (s.setBuffer b x).slot j = s.slot j := rfl
@[simp] theorem State.setBuffer_record (b : BufNo) (x : Buffer) (j : SlotNo) : (s.setBuffer b x).record j = s.record j := rfl
@[simp] theorem State.setBuffer_handle (b : BufNo) (x : Buffer) (j : SlotNo) : (s.setBuffer b x).handle j = s.handle j := rfl
@[simp] theorem State.setBuffer_lookup (b : BufNo) (x : Buffer) (c : Byte) : (s.setBuffer b x).lookup c = s.lookup c := rfl
@[simp] theorem State.setBuffer_holds (b : BufNo) (x : Buffer) (j : SlotNo) : (s.setBuffer b x).holds j = s.holds j := rfl
@[simp] theorem State.setBuffer_carried (b : BufNo) (x : Buffer) (j : SlotNo) : (s.setBuffer b x).carried j = s.carried j := rfl

/-! ### setPlace -/

@[simp] theorem State.setPlace_pending (b : BufNo) (p : Place) : (s.setPlace b p).pending = s.pending := rfl
@[simp] theorem State.setPlace_resetIn (b : BufNo) (p : Place) : (s.setPlace b p).resetIn = s.resetIn := rfl
@[simp] theorem State.setPlace_registry (b : BufNo) (p : Place) : (s.setPlace b p).registry = s.registry := rfl
@[simp] theorem State.setPlace_poll (b : BufNo) (p : Place) : (s.setPlace b p).poll = s.poll := rfl
@[simp] theorem State.setPlace_trunk (b : BufNo) (p : Place) : (s.setPlace b p).trunk = s.trunk := rfl
@[simp] theorem State.setPlace_adm (b : BufNo) (p : Place) : (s.setPlace b p).adm = s.adm := rfl
@[simp] theorem State.setPlace_port0 (b : BufNo) (p : Place) : (s.setPlace b p).port0 = s.port0 := rfl
@[simp] theorem State.setPlace_port1 (b : BufNo) (p : Place) : (s.setPlace b p).port1 = s.port1 := rfl
@[simp] theorem State.setPlace_lineCause (b : BufNo) (p : Place) : (s.setPlace b p).lineCause = s.lineCause := rfl
@[simp] theorem State.setPlace_servedLast (b : BufNo) (p : Place) : (s.setPlace b p).servedLast = s.servedLast := rfl
@[simp] theorem State.setPlace_port (b : BufNo) (p : Place) (c : Channel) : (s.setPlace b p).port c = s.port c := by
  cases c <;> rfl
@[simp] theorem State.setPlace_slot (b : BufNo) (p : Place) (j : SlotNo) : (s.setPlace b p).slot j = s.slot j := rfl
@[simp] theorem State.setPlace_record (b : BufNo) (p : Place) (j : SlotNo) : (s.setPlace b p).record j = s.record j := rfl
@[simp] theorem State.setPlace_handle (b : BufNo) (p : Place) (j : SlotNo) : (s.setPlace b p).handle j = s.handle j := rfl
@[simp] theorem State.setPlace_lookup (b : BufNo) (p : Place) (c : Byte) : (s.setPlace b p).lookup c = s.lookup c := rfl
@[simp] theorem State.setPlace_holds (b : BufNo) (p : Place) (j : SlotNo) : (s.setPlace b p).holds j = s.holds j := rfl
@[simp] theorem State.setPlace_carried (b : BufNo) (p : Place) (j : SlotNo) : (s.setPlace b p).carried j = s.carried j := rfl

/-! ### freeBuffer -/

@[simp] theorem State.freeBuffer_pending (b : BufNo) : (s.freeBuffer b).pending = s.pending := rfl
@[simp] theorem State.freeBuffer_resetIn (b : BufNo) : (s.freeBuffer b).resetIn = s.resetIn := rfl
@[simp] theorem State.freeBuffer_registry (b : BufNo) : (s.freeBuffer b).registry = s.registry := rfl
@[simp] theorem State.freeBuffer_poll (b : BufNo) : (s.freeBuffer b).poll = s.poll := rfl
@[simp] theorem State.freeBuffer_trunk (b : BufNo) : (s.freeBuffer b).trunk = s.trunk := rfl
@[simp] theorem State.freeBuffer_adm (b : BufNo) : (s.freeBuffer b).adm = s.adm := rfl
@[simp] theorem State.freeBuffer_port0 (b : BufNo) : (s.freeBuffer b).port0 = s.port0 := rfl
@[simp] theorem State.freeBuffer_port1 (b : BufNo) : (s.freeBuffer b).port1 = s.port1 := rfl
@[simp] theorem State.freeBuffer_lineCause (b : BufNo) : (s.freeBuffer b).lineCause = s.lineCause := rfl
@[simp] theorem State.freeBuffer_servedLast (b : BufNo) : (s.freeBuffer b).servedLast = s.servedLast := rfl
@[simp] theorem State.freeBuffer_port (b : BufNo) (c : Channel) : (s.freeBuffer b).port c = s.port c := by
  cases c <;> rfl
@[simp] theorem State.freeBuffer_slot (b : BufNo) (j : SlotNo) : (s.freeBuffer b).slot j = s.slot j := rfl
@[simp] theorem State.freeBuffer_record (b : BufNo) (j : SlotNo) : (s.freeBuffer b).record j = s.record j := rfl
@[simp] theorem State.freeBuffer_handle (b : BufNo) (j : SlotNo) : (s.freeBuffer b).handle j = s.handle j := rfl
@[simp] theorem State.freeBuffer_lookup (b : BufNo) (c : Byte) : (s.freeBuffer b).lookup c = s.lookup c := rfl
@[simp] theorem State.freeBuffer_holds (b : BufNo) (j : SlotNo) : (s.freeBuffer b).holds j = s.holds j := rfl
@[simp] theorem State.freeBuffer_carried (b : BufNo) (j : SlotNo) : (s.freeBuffer b).carried j = s.carried j := rfl

/-! ### writeBuffer -/

@[simp] theorem State.writeBuffer_pending (b : BufNo) (bs : List Byte) : (s.writeBuffer b bs).pending = s.pending := rfl
@[simp] theorem State.writeBuffer_resetIn (b : BufNo) (bs : List Byte) : (s.writeBuffer b bs).resetIn = s.resetIn := rfl
@[simp] theorem State.writeBuffer_registry (b : BufNo) (bs : List Byte) : (s.writeBuffer b bs).registry = s.registry := rfl
@[simp] theorem State.writeBuffer_poll (b : BufNo) (bs : List Byte) : (s.writeBuffer b bs).poll = s.poll := rfl
@[simp] theorem State.writeBuffer_trunk (b : BufNo) (bs : List Byte) : (s.writeBuffer b bs).trunk = s.trunk := rfl
@[simp] theorem State.writeBuffer_adm (b : BufNo) (bs : List Byte) : (s.writeBuffer b bs).adm = s.adm := rfl
@[simp] theorem State.writeBuffer_port0 (b : BufNo) (bs : List Byte) : (s.writeBuffer b bs).port0 = s.port0 := rfl
@[simp] theorem State.writeBuffer_port1 (b : BufNo) (bs : List Byte) : (s.writeBuffer b bs).port1 = s.port1 := rfl
@[simp] theorem State.writeBuffer_lineCause (b : BufNo) (bs : List Byte) : (s.writeBuffer b bs).lineCause = s.lineCause := rfl
@[simp] theorem State.writeBuffer_servedLast (b : BufNo) (bs : List Byte) : (s.writeBuffer b bs).servedLast = s.servedLast := rfl
@[simp] theorem State.writeBuffer_port (b : BufNo) (bs : List Byte) (c : Channel) : (s.writeBuffer b bs).port c = s.port c := by
  cases c <;> rfl
@[simp] theorem State.writeBuffer_slot (b : BufNo) (bs : List Byte) (j : SlotNo) : (s.writeBuffer b bs).slot j = s.slot j := rfl
@[simp] theorem State.writeBuffer_record (b : BufNo) (bs : List Byte) (j : SlotNo) : (s.writeBuffer b bs).record j = s.record j := rfl
@[simp] theorem State.writeBuffer_handle (b : BufNo) (bs : List Byte) (j : SlotNo) : (s.writeBuffer b bs).handle j = s.handle j := rfl
@[simp] theorem State.writeBuffer_lookup (b : BufNo) (bs : List Byte) (c : Byte) : (s.writeBuffer b bs).lookup c = s.lookup c := rfl
@[simp] theorem State.writeBuffer_holds (b : BufNo) (bs : List Byte) (j : SlotNo) : (s.writeBuffer b bs).holds j = s.holds j := rfl
@[simp] theorem State.writeBuffer_carried (b : BufNo) (bs : List Byte) (j : SlotNo) : (s.writeBuffer b bs).carried j = s.carried j := rfl

/-! ### appendRing -/

@[simp] theorem State.appendRing_pending (i : SlotNo) : (s.appendRing i).pending = s.pending := rfl
@[simp] theorem State.appendRing_resetIn (i : SlotNo) : (s.appendRing i).resetIn = s.resetIn := rfl
@[simp] theorem State.appendRing_registry (i : SlotNo) : (s.appendRing i).registry = s.registry := rfl
@[simp] theorem State.appendRing_trunk (i : SlotNo) : (s.appendRing i).trunk = s.trunk := rfl
@[simp] theorem State.appendRing_adm (i : SlotNo) : (s.appendRing i).adm = s.adm := rfl
@[simp] theorem State.appendRing_pool (i : SlotNo) : (s.appendRing i).pool = s.pool := rfl
@[simp] theorem State.appendRing_port0 (i : SlotNo) : (s.appendRing i).port0 = s.port0 := rfl
@[simp] theorem State.appendRing_port1 (i : SlotNo) : (s.appendRing i).port1 = s.port1 := rfl
@[simp] theorem State.appendRing_lineCause (i : SlotNo) : (s.appendRing i).lineCause = s.lineCause := rfl
@[simp] theorem State.appendRing_servedLast (i : SlotNo) : (s.appendRing i).servedLast = s.servedLast := rfl
@[simp] theorem State.appendRing_port (i : SlotNo) (c : Channel) : (s.appendRing i).port c = s.port c := by
  cases c <;> rfl
@[simp] theorem State.appendRing_slot (i : SlotNo) (j : SlotNo) : (s.appendRing i).slot j = s.slot j := rfl
@[simp] theorem State.appendRing_record (i : SlotNo) (j : SlotNo) : (s.appendRing i).record j = s.record j := rfl
@[simp] theorem State.appendRing_handle (i : SlotNo) (j : SlotNo) : (s.appendRing i).handle j = s.handle j := rfl
@[simp] theorem State.appendRing_lookup (i : SlotNo) (c : Byte) : (s.appendRing i).lookup c = s.lookup c := rfl
@[simp] theorem State.appendRing_holds (i : SlotNo) (j : SlotNo) : (s.appendRing i).holds j = s.holds j := rfl
@[simp] theorem State.appendRing_carried (i : SlotNo) (j : SlotNo) : (s.appendRing i).carried j = s.carried j := rfl
@[simp] theorem State.appendRing_buffer (i : SlotNo) (c : BufNo) : (s.appendRing i).buffer c = s.buffer c := rfl
@[simp] theorem State.appendRing_bufferBytes (i : SlotNo) (c : BufNo) (n : Nat) :
    (s.appendRing i).bufferBytes c n = s.bufferBytes c n := rfl

/-! ### updPoll -/

@[simp] theorem State.updPoll_pending (f : PollRing → PollRing) : (s.updPoll f).pending = s.pending := rfl
@[simp] theorem State.updPoll_resetIn (f : PollRing → PollRing) : (s.updPoll f).resetIn = s.resetIn := rfl
@[simp] theorem State.updPoll_registry (f : PollRing → PollRing) : (s.updPoll f).registry = s.registry := rfl
@[simp] theorem State.updPoll_trunk (f : PollRing → PollRing) : (s.updPoll f).trunk = s.trunk := rfl
@[simp] theorem State.updPoll_adm (f : PollRing → PollRing) : (s.updPoll f).adm = s.adm := rfl
@[simp] theorem State.updPoll_pool (f : PollRing → PollRing) : (s.updPoll f).pool = s.pool := rfl
@[simp] theorem State.updPoll_port0 (f : PollRing → PollRing) : (s.updPoll f).port0 = s.port0 := rfl
@[simp] theorem State.updPoll_port1 (f : PollRing → PollRing) : (s.updPoll f).port1 = s.port1 := rfl
@[simp] theorem State.updPoll_lineCause (f : PollRing → PollRing) : (s.updPoll f).lineCause = s.lineCause := rfl
@[simp] theorem State.updPoll_servedLast (f : PollRing → PollRing) : (s.updPoll f).servedLast = s.servedLast := rfl
@[simp] theorem State.updPoll_port (f : PollRing → PollRing) (c : Channel) : (s.updPoll f).port c = s.port c := by
  cases c <;> rfl
@[simp] theorem State.updPoll_slot (f : PollRing → PollRing) (j : SlotNo) : (s.updPoll f).slot j = s.slot j := rfl
@[simp] theorem State.updPoll_record (f : PollRing → PollRing) (j : SlotNo) : (s.updPoll f).record j = s.record j := rfl
@[simp] theorem State.updPoll_handle (f : PollRing → PollRing) (j : SlotNo) : (s.updPoll f).handle j = s.handle j := rfl
@[simp] theorem State.updPoll_lookup (f : PollRing → PollRing) (c : Byte) : (s.updPoll f).lookup c = s.lookup c := rfl
@[simp] theorem State.updPoll_holds (f : PollRing → PollRing) (j : SlotNo) : (s.updPoll f).holds j = s.holds j := rfl
@[simp] theorem State.updPoll_carried (f : PollRing → PollRing) (j : SlotNo) : (s.updPoll f).carried j = s.carried j := rfl
@[simp] theorem State.updPoll_buffer (f : PollRing → PollRing) (c : BufNo) : (s.updPoll f).buffer c = s.buffer c := rfl
@[simp] theorem State.updPoll_bufferBytes (f : PollRing → PollRing) (c : BufNo) (n : Nat) :
    (s.updPoll f).bufferBytes c n = s.bufferBytes c n := rfl

/-! ### updTrunk -/

@[simp] theorem State.updTrunk_pending (f : Trunk → Trunk) : (s.updTrunk f).pending = s.pending := rfl
@[simp] theorem State.updTrunk_resetIn (f : Trunk → Trunk) : (s.updTrunk f).resetIn = s.resetIn := rfl
@[simp] theorem State.updTrunk_registry (f : Trunk → Trunk) : (s.updTrunk f).registry = s.registry := rfl
@[simp] theorem State.updTrunk_poll (f : Trunk → Trunk) : (s.updTrunk f).poll = s.poll := rfl
@[simp] theorem State.updTrunk_adm (f : Trunk → Trunk) : (s.updTrunk f).adm = s.adm := rfl
@[simp] theorem State.updTrunk_pool (f : Trunk → Trunk) : (s.updTrunk f).pool = s.pool := rfl
@[simp] theorem State.updTrunk_port0 (f : Trunk → Trunk) : (s.updTrunk f).port0 = s.port0 := rfl
@[simp] theorem State.updTrunk_port1 (f : Trunk → Trunk) : (s.updTrunk f).port1 = s.port1 := rfl
@[simp] theorem State.updTrunk_lineCause (f : Trunk → Trunk) : (s.updTrunk f).lineCause = s.lineCause := rfl
@[simp] theorem State.updTrunk_servedLast (f : Trunk → Trunk) : (s.updTrunk f).servedLast = s.servedLast := rfl
@[simp] theorem State.updTrunk_port (f : Trunk → Trunk) (c : Channel) : (s.updTrunk f).port c = s.port c := by
  cases c <;> rfl
@[simp] theorem State.updTrunk_slot (f : Trunk → Trunk) (j : SlotNo) : (s.updTrunk f).slot j = s.slot j := rfl
@[simp] theorem State.updTrunk_record (f : Trunk → Trunk) (j : SlotNo) : (s.updTrunk f).record j = s.record j := rfl
@[simp] theorem State.updTrunk_handle (f : Trunk → Trunk) (j : SlotNo) : (s.updTrunk f).handle j = s.handle j := rfl
@[simp] theorem State.updTrunk_lookup (f : Trunk → Trunk) (c : Byte) : (s.updTrunk f).lookup c = s.lookup c := rfl
@[simp] theorem State.updTrunk_buffer (f : Trunk → Trunk) (c : BufNo) : (s.updTrunk f).buffer c = s.buffer c := rfl
@[simp] theorem State.updTrunk_bufferBytes (f : Trunk → Trunk) (c : BufNo) (n : Nat) :
    (s.updTrunk f).bufferBytes c n = s.bufferBytes c n := rfl

/-! ### updCounters -/

@[simp] theorem State.updCounters_pending (f : Counters → Counters) : (s.updCounters f).pending = s.pending := rfl
@[simp] theorem State.updCounters_resetIn (f : Counters → Counters) : (s.updCounters f).resetIn = s.resetIn := rfl
@[simp] theorem State.updCounters_registry (f : Counters → Counters) : (s.updCounters f).registry = s.registry := rfl
@[simp] theorem State.updCounters_poll (f : Counters → Counters) : (s.updCounters f).poll = s.poll := rfl
@[simp] theorem State.updCounters_adm (f : Counters → Counters) : (s.updCounters f).adm = s.adm := rfl
@[simp] theorem State.updCounters_pool (f : Counters → Counters) : (s.updCounters f).pool = s.pool := rfl
@[simp] theorem State.updCounters_port0 (f : Counters → Counters) : (s.updCounters f).port0 = s.port0 := rfl
@[simp] theorem State.updCounters_port1 (f : Counters → Counters) : (s.updCounters f).port1 = s.port1 := rfl
@[simp] theorem State.updCounters_lineCause (f : Counters → Counters) : (s.updCounters f).lineCause = s.lineCause := rfl
@[simp] theorem State.updCounters_servedLast (f : Counters → Counters) : (s.updCounters f).servedLast = s.servedLast := rfl
@[simp] theorem State.updCounters_port (f : Counters → Counters) (c : Channel) : (s.updCounters f).port c = s.port c := by
  cases c <;> rfl
@[simp] theorem State.updCounters_slot (f : Counters → Counters) (j : SlotNo) : (s.updCounters f).slot j = s.slot j := rfl
@[simp] theorem State.updCounters_record (f : Counters → Counters) (j : SlotNo) : (s.updCounters f).record j = s.record j := rfl
@[simp] theorem State.updCounters_handle (f : Counters → Counters) (j : SlotNo) : (s.updCounters f).handle j = s.handle j := rfl
@[simp] theorem State.updCounters_lookup (f : Counters → Counters) (c : Byte) : (s.updCounters f).lookup c = s.lookup c := rfl
@[simp] theorem State.updCounters_buffer (f : Counters → Counters) (c : BufNo) : (s.updCounters f).buffer c = s.buffer c := rfl
@[simp] theorem State.updCounters_bufferBytes (f : Counters → Counters) (c : BufNo) (n : Nat) :
    (s.updCounters f).bufferBytes c n = s.bufferBytes c n := rfl

/-! ### releaseTarget -/

@[simp] theorem State.releaseTarget_pending : (s.releaseTarget).pending = s.pending := rfl
@[simp] theorem State.releaseTarget_resetIn : (s.releaseTarget).resetIn = s.resetIn := rfl
@[simp] theorem State.releaseTarget_registry : (s.releaseTarget).registry = s.registry := rfl
@[simp] theorem State.releaseTarget_poll : (s.releaseTarget).poll = s.poll := rfl
@[simp] theorem State.releaseTarget_adm : (s.releaseTarget).adm = s.adm := rfl
@[simp] theorem State.releaseTarget_pool : (s.releaseTarget).pool = s.pool := rfl
@[simp] theorem State.releaseTarget_port0 : (s.releaseTarget).port0 = s.port0 := rfl
@[simp] theorem State.releaseTarget_port1 : (s.releaseTarget).port1 = s.port1 := rfl
@[simp] theorem State.releaseTarget_lineCause : (s.releaseTarget).lineCause = s.lineCause := rfl
@[simp] theorem State.releaseTarget_servedLast : (s.releaseTarget).servedLast = s.servedLast := rfl
@[simp] theorem State.releaseTarget_port (c : Channel) : (s.releaseTarget).port c = s.port c := by
  cases c <;> rfl
@[simp] theorem State.releaseTarget_slot (j : SlotNo) : (s.releaseTarget).slot j = s.slot j := rfl
@[simp] theorem State.releaseTarget_record (j : SlotNo) : (s.releaseTarget).record j = s.record j := rfl
@[simp] theorem State.releaseTarget_handle (j : SlotNo) : (s.releaseTarget).handle j = s.handle j := rfl
@[simp] theorem State.releaseTarget_lookup (c : Byte) : (s.releaseTarget).lookup c = s.lookup c := rfl
@[simp] theorem State.releaseTarget_buffer (c : BufNo) : (s.releaseTarget).buffer c = s.buffer c := rfl
@[simp] theorem State.releaseTarget_bufferBytes (c : BufNo) (n : Nat) :
    (s.releaseTarget).bufferBytes c n = s.bufferBytes c n := rfl

/-! ### updAdm -/

@[simp] theorem State.updAdm_pending (f : Admission → Admission) : (s.updAdm f).pending = s.pending := rfl
@[simp] theorem State.updAdm_resetIn (f : Admission → Admission) : (s.updAdm f).resetIn = s.resetIn := rfl
@[simp] theorem State.updAdm_registry (f : Admission → Admission) : (s.updAdm f).registry = s.registry := rfl
@[simp] theorem State.updAdm_poll (f : Admission → Admission) : (s.updAdm f).poll = s.poll := rfl
@[simp] theorem State.updAdm_trunk (f : Admission → Admission) : (s.updAdm f).trunk = s.trunk := rfl
@[simp] theorem State.updAdm_pool (f : Admission → Admission) : (s.updAdm f).pool = s.pool := rfl
@[simp] theorem State.updAdm_port0 (f : Admission → Admission) : (s.updAdm f).port0 = s.port0 := rfl
@[simp] theorem State.updAdm_port1 (f : Admission → Admission) : (s.updAdm f).port1 = s.port1 := rfl
@[simp] theorem State.updAdm_lineCause (f : Admission → Admission) : (s.updAdm f).lineCause = s.lineCause := rfl
@[simp] theorem State.updAdm_servedLast (f : Admission → Admission) : (s.updAdm f).servedLast = s.servedLast := rfl
@[simp] theorem State.updAdm_port (f : Admission → Admission) (c : Channel) : (s.updAdm f).port c = s.port c := by
  cases c <;> rfl
@[simp] theorem State.updAdm_slot (f : Admission → Admission) (j : SlotNo) : (s.updAdm f).slot j = s.slot j := rfl
@[simp] theorem State.updAdm_record (f : Admission → Admission) (j : SlotNo) : (s.updAdm f).record j = s.record j := rfl
@[simp] theorem State.updAdm_handle (f : Admission → Admission) (j : SlotNo) : (s.updAdm f).handle j = s.handle j := rfl
@[simp] theorem State.updAdm_lookup (f : Admission → Admission) (c : Byte) : (s.updAdm f).lookup c = s.lookup c := rfl
@[simp] theorem State.updAdm_holds (f : Admission → Admission) (j : SlotNo) : (s.updAdm f).holds j = s.holds j := rfl
@[simp] theorem State.updAdm_carried (f : Admission → Admission) (j : SlotNo) : (s.updAdm f).carried j = s.carried j := rfl
@[simp] theorem State.updAdm_buffer (f : Admission → Admission) (c : BufNo) : (s.updAdm f).buffer c = s.buffer c := rfl
@[simp] theorem State.updAdm_bufferBytes (f : Admission → Admission) (c : BufNo) (n : Nat) :
    (s.updAdm f).bufferBytes c n = s.bufferBytes c n := rfl

/-! ### What each update sets -/

@[simp] theorem State.port_setPort_same (ch : Channel) (p : Port) : (s.setPort ch p).port ch = p := by
  cases ch <;> rfl

@[simp] theorem State.port_setPort_other (ch : Channel) (p : Port) :
    (s.setPort ch p).port (otherChannel ch) = s.port (otherChannel ch) := by
  cases ch <;> rfl

theorem State.port_setPort (ch c : Channel) (p : Port) :
    (s.setPort ch p).port c = if c = ch then p else s.port c := by
  cases ch <;> cases c <;> rfl

@[simp] theorem State.setPort_setPort (ch : Channel) (p q : Port) : (s.setPort ch p).setPort ch q = s.setPort ch q := by
  cases ch <;> rfl

@[simp] theorem State.setPort_port (ch : Channel) : s.setPort ch (s.port ch) = s := by
  cases ch <;> rfl

theorem State.slot_setSlot (i j : SlotNo) (x : Slot) :
    (s.setSlot i x).slot j = if i = j then x else s.slot j := by
  simp only [State.slot, State.setSlot, Fin.getElem_fin, Vector.getElem_set, Fin.ext_iff]

@[simp] theorem State.slot_setSlot_same (i : SlotNo) (x : Slot) : (s.setSlot i x).slot i = x := by
  simp [State.slot_setSlot]

theorem State.slot_setRecord (i j : SlotNo) (r : Option Record) :
    (s.setRecord i r).slot j = if i = j then { s.slot i with record := r } else s.slot j :=
  s.slot_setSlot i j _

theorem State.record_setRecord (i j : SlotNo) (r : Option Record) :
    (s.setRecord i r).record j = if i = j then r else s.record j := by
  unfold State.record
  rw [State.slot_setRecord]
  split <;> rfl

@[simp] theorem State.record_setRecord_same (i : SlotNo) (r : Option Record) : (s.setRecord i r).record i = r := by
  simp [State.record_setRecord]

@[simp] theorem State.gen_setRecord (i j : SlotNo) (r : Option Record) :
    ((s.setRecord i r).slot j).gen = (s.slot j).gen := by
  rw [State.slot_setRecord]
  split
  · rename_i h; rw [← h]
  · rfl

@[simp] theorem State.lookup_setRecord (i : SlotNo) (r : Option Record) (a : Byte) :
    (s.setRecord i r).lookup a = s.lookup a := rfl

theorem State.lookup_setIndex (a c : Byte) (e : Option SlotNo) :
    (s.setIndex a e).lookup c = if a = c then e else s.lookup c := by
  simp only [State.lookup, State.setIndex, Fin.getElem_fin, Vector.getElem_set, BitVec.val_toFin]
  simp only [BitVec.toNat_eq]

@[simp] theorem State.slot_setIndex (a : Byte) (e : Option SlotNo) (j : SlotNo) :
    (s.setIndex a e).slot j = s.slot j := rfl

@[simp] theorem State.record_setIndex (a : Byte) (e : Option SlotNo) (j : SlotNo) :
    (s.setIndex a e).record j = s.record j := rfl

theorem State.buffer_setBuffer (b c : BufNo) (x : Buffer) :
    (s.setBuffer b x).buffer c = if b = c then x else s.buffer c := by
  simp only [State.buffer, State.setBuffer, Fin.getElem_fin, Vector.getElem_set, Fin.ext_iff]

@[simp] theorem State.buffer_setBuffer_same (b : BufNo) (x : Buffer) : (s.setBuffer b x).buffer b = x := by
  simp [State.buffer_setBuffer]

theorem State.buffer_setPlace (b c : BufNo) (p : Place) :
    (s.setPlace b p).buffer c = if b = c then { s.buffer b with place := p } else s.buffer c :=
  s.buffer_setBuffer b c _

theorem State.buffer_freeBuffer (b c : BufNo) :
    (s.freeBuffer b).buffer c = if b = c then { s.buffer b with place := .free } else s.buffer c :=
  s.buffer_setPlace b c .free

@[simp] theorem State.free_freeBuffer (b : BufNo) : (s.freeBuffer b).pool.free = s.pool.free ++ [b] := rfl

@[simp] theorem State.mem_freeBuffer (b : BufNo) : (s.freeBuffer b).pool.mem = s.pool.mem := rfl

@[simp] theorem State.trunk_updTrunk (f : Trunk → Trunk) : (s.updTrunk f).trunk = f s.trunk := rfl

@[simp] theorem State.poll_updPoll (f : PollRing → PollRing) : (s.updPoll f).poll = f s.poll := rfl

@[simp] theorem State.adm_updAdm (f : Admission → Admission) : (s.updAdm f).adm = f s.adm := rfl

end Sys2Proof.Machine
end

