-- ==== Sys2Proof/Laws/HostPort.lean ====
section
/-! SUPPORT. What the take of a host command, its checks and its completion do, said once. -/

namespace Sys2Proof.Machine

variable (s : State)

/-! ### Completion -/

theorem sixWords_ofFn (ws : List Word) : sixWords ws = Vector.ofFn fun n : Fin 6 => ws.getD n.val 0 := by
  ext k hk
  simp only [Vector.getElem_ofFn]
  match k, hk with
  | 0, _ | 1, _ | 2, _ | 3, _ | 4, _ | 5, _ => rfl

/-- A completion with OK is the answer with its results. -/
@[simp] theorem State.complete_ok (ch : Channel) (ws : List Word) : s.complete ch .ok ws = s.answer ch .ok ws := by
  simp [State.complete, State.answer, sixWords_ofFn]

/-- A refusal is the answer with no results. -/
@[simp] theorem State.fail_answer (ch : Channel) {code : ResultCode} (h : code ≠ .ok) :
    s.fail ch code = s.answer ch code [] := by
  simp [State.fail, State.complete, State.answer, sixWords_ofFn, h]

theorem State.complete_aborted (ch : Channel) : s.complete ch .aborted [] = s.answer ch .aborted [] :=
  s.fail_answer ch (by decide)

/-! ### The take -/

@[simp] theorem State.served_registry (ch : Channel) (code opts : Byte) :
    (s.served ch code opts).registry = s.registry := by cases ch <;> rfl

@[simp] theorem State.served_poll (ch : Channel) (code opts : Byte) : (s.served ch code opts).poll = s.poll := by
  cases ch <;> rfl

@[simp] theorem State.served_trunk (ch : Channel) (code opts : Byte) : (s.served ch code opts).trunk = s.trunk := by
  cases ch <;> rfl

@[simp] theorem State.served_adm (ch : Channel) (code opts : Byte) : (s.served ch code opts).adm = s.adm := by
  cases ch <;> rfl

@[simp] theorem State.served_pool (ch : Channel) (code opts : Byte) : (s.served ch code opts).pool = s.pool := by
  cases ch <;> rfl

@[simp] theorem State.served_lineCause (ch : Channel) (code opts : Byte) :
    (s.served ch code opts).lineCause = s.lineCause := by cases ch <;> rfl

@[simp] theorem State.served_pending (ch : Channel) (code opts : Byte) :
    (s.served ch code opts).pending = s.pending := by cases ch <;> rfl


@[simp] theorem State.served_resetIn (ch : Channel) (code opts : Byte) :
    (s.served ch code opts).resetIn = s.resetIn := by cases ch <;> rfl

@[simp] theorem State.served_port_same (ch : Channel) (code opts : Byte) :
    (s.served ch code opts).port ch = (s.port ch).atTake code opts := by cases ch <;> rfl

@[simp] theorem State.served_port_other (ch : Channel) (code opts : Byte) :
    (s.served ch code opts).port (otherChannel ch) = s.port (otherChannel ch) := by cases ch <;> rfl

@[simp] theorem Port.atTake_words (p : Port) (code opts : Byte) : (p.atTake code opts).words = p.words := by
  unfold Port.atTake; split <;> rfl

@[simp] theorem Port.atTake_changeList (p : Port) (code opts : Byte) :
    (p.atTake code opts).changeList = p.changeList := by
  unfold Port.atTake; split <;> rfl

@[simp] theorem Port.atTake_deliveryQueue (p : Port) (code opts : Byte) :
    (p.atTake code opts).deliveryQueue = p.deliveryQueue := by
  unfold Port.atTake; split <;> rfl

@[simp] theorem Port.atTake_state (p : Port) (code opts : Byte) : (p.atTake code opts).state = .executing := by
  unfold Port.atTake; split <;> rfl

@[simp] theorem State.served_arg (ch : Channel) (code opts : Byte) (n : Fin 6) :
    (s.served ch code opts).arg ch n = s.arg ch n := by
  simp [State.arg]

@[simp] theorem State.served_slot (ch : Channel) (code opts : Byte) (i : SlotNo) :
    (s.served ch code opts).slot i = s.slot i := by cases ch <;> rfl

@[simp] theorem State.served_record (ch : Channel) (code opts : Byte) (i : SlotNo) :
    (s.served ch code opts).record i = s.record i := by cases ch <;> rfl

@[simp] theorem State.served_handle (ch : Channel) (code opts : Byte) (i : SlotNo) :
    (s.served ch code opts).handle i = s.handle i := by cases ch <;> rfl

@[simp] theorem State.served_lookup (ch : Channel) (code opts a : Byte) :
    (s.served ch code opts).lookup a = s.lookup a := by cases ch <;> rfl

@[simp] theorem State.served_buffer (ch : Channel) (code opts : Byte) (b : BufNo) :
    (s.served ch code opts).buffer b = s.buffer b := by cases ch <;> rfl

@[simp] theorem State.served_bufferBytes (ch : Channel) (code opts : Byte) (b : BufNo) (n : Nat) :
    (s.served ch code opts).bufferBytes b n = s.bufferBytes b n := by cases ch <;> rfl

@[simp] theorem State.served_holds (ch : Channel) (code opts : Byte) (i : SlotNo) :
    (s.served ch code opts).holds i = s.holds i := by cases ch <;> rfl

@[simp] theorem State.served_isHeld (ch c : Channel) (code opts : Byte) (b : BufNo) :
    (s.served ch code opts).isHeld c b = s.isHeld c b := by cases ch <;> rfl

@[simp] theorem State.served_findIdentity (ch : Channel) (code opts : Byte) (identity : List Byte) :
    (s.served ch code opts).findIdentity identity = s.findIdentity identity := by cases ch <;> rfl

@[simp] theorem State.served_allocateAddress (ch : Channel) (code opts : Byte) :
    (s.served ch code opts).allocateAddress = s.allocateAddress := by cases ch <;> rfl

theorem State.isHeld_iff (ch : Channel) (b : BufNo) : s.isHeld ch b = true ↔ s.Holds ch b := by
  simp [State.isHeld]

/-- A host command that is ready is taken: its body runs on the state at its take. -/
theorem command_ready {code : Byte} {ch : Channel} {s : State} (h : s.Ready ch code)
    (body : Channel → State → State) (opts : Byte) :
    command code body ch opts s = .next (body ch (s.served ch code opts)) := by
  obtain ⟨hr, hp, ho⟩ := h
  have ready : (s.issued ch code opts).engineTakes ch code = true
      ∧ (s.issued ch code opts).taken ch = s.served ch code opts := by
    rcases hp with hp | hp | ⟨hp, hc⟩ <;> cases ch <;>
      simp_all [State.issued, State.pendingWith, State.writeCommand, State.engineTakes, State.taken, State.served,
        State.port, State.setPort, otherChannel, Port.atTake]
  simp only [command, unlessReset, hr, ready]
  simp

/-- A host command that is not ready leaves the state as the write of its word does. -/
theorem command_not_ready {code : Byte} {ch : Channel} {s : State} (hr : s.resetIn = false)
    (h : ¬ s.Ready ch code) (body : Channel → State → State) (opts : Byte) :
    command code body ch opts s = .next (s.issued ch code opts) := by
  have hn : (s.issued ch code opts).engineTakes ch code = false := by
    by_cases hc : (s.port ch).code = code <;> cases ch <;> cases hs : s.port0.state <;>
      cases hs' : s.port1.state <;>
      simp_all [State.Ready, State.issued, State.pendingWith, State.writeCommand, State.engineTakes, State.port,
        State.setPort, otherChannel]
  simp [command, unlessReset, hr, hn]

/-- While reset in is asserted a host command changes nothing. -/
theorem command_reset {code : Byte} {ch : Channel} {s : State} (hr : s.resetIn = true)
    (body : Channel → State → State) (opts : Byte) : command code body ch opts s = .next s := by
  simp [command, unlessReset, hr]

/-! ### The checks of a command that names a record -/

/-- The record checks answer the refusal `named` gives, or go on with the record it names. -/
theorem withRecord_named (ch : Channel) (s : State) (changes argsOk : Bool) (k : SlotNo → Record → State) :
    withRecord ch s changes argsOk k =
      match s.named ch changes argsOk with
      | .error code => s.answer ch code []
      | .ok (i, r) => k i r := by
  unfold withRecord slotOf State.named
  by_cases h : (loByte (s.arg ch 0)).toNat < 64
  · simp only [h, dite_true]
    cases argsOk
    · simp
    · cases s.record ⟨_, h⟩ with
      | none => simp
      | some r =>
        by_cases hg : (s.slot ⟨(loByte (s.arg ch 0)).toNat, h⟩).gen = hiByte (s.arg ch 0)
        · by_cases ho : changes = true ∧ ch = .ch1 ∧ r.owner = .ch0
          · simp only [if_pos ho]; simp [hg]
          · simp only [if_neg ho]; simp [hg]
        · simp [hg]
  · simp [h]

end Sys2Proof.Machine
end

