-- ==== Sys2Proof/Laws/Memory.lean ====
section
/-! SUPPORT. The laws of the buffer memory: what a read gives after a write, and that every memory operation keeps the
canonical form. -/

namespace Sys2Proof.Machine

open Host

/-! ### The canonical form, as a condition on the list's cells -/

/-- Every address of a canonical memory whose first cell is at k lies at or above k. -/
theorem Memory.wf_tail {k : Nat} {v : Byte} {m : List Cell} (h : Memory.wf ((k, v) :: m) = true) :
    Memory.wf m = true ∧ v ≠ 0 ∧ k < poolBytes ∧ ∀ c ∈ m, k < c.1 := by
  induction m generalizing k v with
  | nil => simp_all [Memory.wf]
  | cons c m ih =>
    obtain ⟨k', v'⟩ := c
    simp only [Memory.wf, Bool.and_eq_true, decide_eq_true_eq] at h
    obtain ⟨⟨hk, hv⟩, hm⟩ := h
    obtain ⟨_, _, hk', hall⟩ := ih hm
    refine ⟨hm, hv, by omega, ?_⟩
    intro c hc
    rcases List.mem_cons.mp hc with rfl | hc
    · exact hk
    · exact Nat.lt_trans hk (hall c hc)

/-- A cell with a smaller address and a value other than 0 in front keeps the form. -/
theorem Memory.wf_cons {k : Nat} {v : Byte} {m : List Cell} (hm : Memory.wf m = true) (hv : v ≠ 0)
    (hk : k < poolBytes) (hall : ∀ c ∈ m, k < c.1) : Memory.wf ((k, v) :: m) = true := by
  have hv' : ¬ v = 0#8 := hv
  cases m with
  | nil => simp [Memory.wf, hv', hk]
  | cons c m =>
    obtain ⟨k', v'⟩ := c
    simp [Memory.wf, hv', hm, hall (k', v') (by simp)]

theorem Memory.read_of_lt {m : List Cell} {a : Nat} (h : ∀ c ∈ m, a < c.1) : Memory.read m a = 0 := by
  induction m with
  | nil => rfl
  | cons c m ih =>
    obtain ⟨k, v⟩ := c
    have hk : a < k := h (k, v) (by simp)
    rw [Memory.read, if_neg (by omega)]
    exact ih fun c hc => h c (by simp [hc])

/-! ### One byte -/

/-- A write changes the byte at its address and no other. -/
theorem Memory.read_write {m : List Cell} (hm : Memory.wf m = true) (a : Nat) (v : Byte) (b : Nat) :
    Memory.read (Memory.write m a v) b = if b = a then v else Memory.read m b := by
  induction m with
  | nil =>
    by_cases hv : v = 0#8 <;> by_cases hb : b = a <;> simp [Memory.write, Memory.read, hv, hb]
  | cons c m ih =>
    obtain ⟨k, w⟩ := c
    obtain ⟨hm', _, _, hall⟩ := Memory.wf_tail hm
    rw [Memory.write]
    split
    · rename_i hlt
      by_cases hv : v = 0
      · rw [if_pos hv]
        by_cases hb : b = a
        · rw [if_pos hb, hv, hb]
          exact Memory.read_of_lt fun c hc => by
            rcases List.mem_cons.mp hc with rfl | hc
            · exact hlt
            · exact Nat.lt_trans hlt (hall c hc)
        · rw [if_neg hb]
      · rw [if_neg hv, Memory.read]
    · split
      · rename_i _ heq
        subst heq
        by_cases hv : v = 0
        · rw [if_pos hv]
          by_cases hb : b = a
          · rw [if_pos hb, hv, hb]
            exact Memory.read_of_lt hall
          · rw [if_neg hb, Memory.read, if_neg hb]
        · rw [if_neg hv, Memory.read]
          by_cases hb : b = a
          · simp [hb]
          · simp [hb, Memory.read]
      · rename_i hlt hne
        rw [Memory.read, ih hm']
        by_cases hb : b = k
        · subst hb; rw [if_pos rfl, if_neg (by omega)]; simp [Memory.read]
        · rw [if_neg hb]
          by_cases hba : b = a
          · simp [hba]
          · simp [hba, Memory.read, hb]

theorem Memory.mem_write {m : List Cell} {a : Nat} {v : Byte} {c : Cell} (h : c ∈ Memory.write m a v) :
    c.1 = a ∨ c ∈ m := by
  induction m with
  | nil =>
    rw [Memory.write] at h
    split at h
    · cases h
    · simp_all
  | cons d m ih =>
    obtain ⟨k, w⟩ := d
    rw [Memory.write] at h
    split at h
    · split at h
      · exact .inr h
      · rcases List.mem_cons.mp h with rfl | h
        · exact .inl rfl
        · exact .inr h
    · split at h
      · split at h
        · exact .inr (by simp [h])
        · rcases List.mem_cons.mp h with rfl | h
          · exact .inl rfl
          · exact .inr (by simp [h])
      · rcases List.mem_cons.mp h with rfl | h
        · exact .inr (by simp)
        · rcases ih h with h | h
          · exact .inl h
          · exact .inr (by simp [h])

/-- A write inside the pool keeps the canonical form. -/
theorem Memory.write_wf {m : List Cell} (hm : Memory.wf m = true) {a : Nat} (ha : a < poolBytes) (v : Byte) :
    Memory.wf (Memory.write m a v) = true := by
  induction m with
  | nil => by_cases hv : v = 0#8 <;> simp [Memory.write, Memory.wf, hv, ha]
  | cons c m ih =>
    obtain ⟨k, w⟩ := c
    obtain ⟨hm', hw, hk, hall⟩ := Memory.wf_tail hm
    rw [Memory.write]
    split
    · rename_i hlt
      split
      · exact hm
      · rename_i hv
        refine Memory.wf_cons hm hv ha fun c hc => ?_
        rcases List.mem_cons.mp hc with rfl | hc
        · exact hlt
        · exact Nat.lt_trans hlt (hall c hc)
    · split
      · rename_i _ heq
        split
        · exact hm'
        · rename_i hv
          exact Memory.wf_cons hm' hv ha fun c hc => heq ▸ hall c hc
      · refine Memory.wf_cons (ih hm') hw hk fun c hc => ?_
        rcases Memory.mem_write hc with h | h
        · omega
        · exact hall c h

/-! ### Several bytes -/

/-- Writing bytes inside the pool keeps the canonical form. -/
theorem Memory.writeBytes_wf {bytes : List Byte} {m : List Cell} {a : Nat} (hm : Memory.wf m = true)
    (ha : a + bytes.length ≤ poolBytes) : Memory.wf (Memory.writeBytes m a bytes) = true := by
  induction bytes generalizing m a with
  | nil => exact hm
  | cons b bytes ih =>
    simp only [List.length_cons] at ha
    exact ih (Memory.write_wf hm (by omega) b) (by omega)

/-- Writing bytes from an address up writes those bytes and no other. -/
theorem Memory.wrote_writeBytes {bytes : List Byte} {m : List Cell} {a : Nat} (hm : Memory.wf m = true)
    (ha : a + bytes.length ≤ poolBytes) : Wrote m (Memory.writeBytes m a bytes) a bytes := by
  induction bytes generalizing m a with
  | nil => intro b; rw [if_neg (by simp only [List.length_nil]; omega)]; rfl
  | cons v bytes ih =>
    simp only [List.length_cons] at ha
    intro b
    have h := ih (a := a + 1) (Memory.write_wf (a := a) hm (by omega) v) (by omega) b
    rw [Memory.writeBytes, h, Memory.read_write hm]
    simp only [List.length_cons]
    by_cases h1 : a + 1 ≤ b ∧ b < a + 1 + bytes.length
    · rw [if_pos h1, if_pos (by omega), show b - a = b - (a + 1) + 1 by omega]; simp
    · rw [if_neg h1]
      by_cases h2 : b = a
      · rw [if_pos h2, if_pos (by omega)]; simp [h2]
      · rw [if_neg h2, if_neg (by omega)]

/-- A buffer written from byte 0 keeps the canonical form. -/
theorem State.writeBuffer_wf {s : State} (hm : Memory.wf s.pool.mem = true) (b : BufNo) (bytes : List Byte) :
    Memory.wf (s.writeBuffer b bytes).pool.mem = true := by
  refine Memory.writeBytes_wf hm ?_
  have := b.isLt
  simp only [bufferBase, poolBytes, List.length_take]
  omega

/-- A buffer written from byte 0 with bytes that fit it holds those bytes, and no other byte of the pool changes. -/
theorem State.wrote_writeBuffer {s : State} (hm : Memory.wf s.pool.mem = true) (b : BufNo) {bytes : List Byte}
    (h : bytes.length ≤ 128) : Wrote s.pool.mem (s.writeBuffer b bytes).pool.mem (bufferBase b) bytes := by
  have hb := b.isLt
  rw [State.writeBuffer, List.take_of_length_le h]
  exact Memory.wrote_writeBytes hm (by simp only [bufferBase, poolBytes]; omega)

/-- Reading bytes gives each byte by its address. -/
theorem Memory.readBytes_getD (m : List Cell) (a n k : Nat) :
    (Memory.readBytes m a n).getD k 0 = if k < n then Memory.read m (a + k) else 0 := by
  induction n generalizing a k with
  | zero => simp [Memory.readBytes]
  | succ n ih =>
    cases k with
    | zero => simp [Memory.readBytes]
    | succ k =>
      have := ih (a + 1) k
      simp only [Memory.readBytes, List.getD_cons_succ, this]
      by_cases h : k < n
      · rw [if_pos h, if_pos (by omega), show a + 1 + k = a + (k + 1) by omega]
      · rw [if_neg h, if_neg (by omega)]

@[simp] theorem Memory.readBytes_length (m : List Cell) (a n : Nat) : (Memory.readBytes m a n).length = n := by
  induction n generalizing a with
  | zero => rfl
  | succ n ih => simp [Memory.readBytes, ih]

end Sys2Proof.Machine
end

