-- ==== Sys2Proof/Laws/Ops.lean ====
section
/-! SUPPORT. What each shared operation can do, said once: the cases of the operations that look a record up, and the
parts of the state that posting, retirement, choices and admissions leave alone. -/

namespace Sys2Proof.Machine

variable (s : State)

/-! ### The model's own parts of the state -/

/-- The two states agree on the queue, reset in, the LINE cause and the served-last indicator: the parts no operation on
the blocks touches. -/
def State.SameOuter (s t : State) : Prop :=
  t.pending = s.pending ∧ t.resetIn = s.resetIn ∧ t.lineCause = s.lineCause
    ∧ t.servedLast = s.servedLast

theorem State.SameOuter.refl : s.SameOuter s := ⟨rfl, rfl, rfl, rfl⟩

theorem State.SameOuter.trans {s t u : State} (h : s.SameOuter t) (k : t.SameOuter u) : s.SameOuter u := by
  obtain ⟨a1, a2, a3, a4⟩ := h
  obtain ⟨b1, b2, b3, b4⟩ := k
  exact ⟨b1.trans a1, b2.trans a2, b3.trans a3, b4.trans a4⟩

/-! ### Records -/

theorem State.updRecord_none {i : SlotNo} (f : Record → Record) (h : s.record i = none) : s.updRecord i f = s := by
  simp [State.updRecord, h]

theorem State.updRecord_some {i : SlotNo} {r : Record} (f : Record → Record) (h : s.record i = some r) :
    s.updRecord i f = s.setRecord i (some (f r)) := by
  simp [State.updRecord, h]

theorem State.record_updRecord (i j : SlotNo) (f : Record → Record) :
    (s.updRecord i f).record j = if i = j then (s.record j).map f else s.record j := by
  cases h : s.record i with
  | none =>
    rw [State.updRecord_none s f h]
    split
    · next e => subst e; simp [h]
    · rfl
  | some r =>
    rw [State.updRecord_some s f h, State.record_setRecord]
    split
    · next e => subst e; simp [h]
    · rfl

theorem State.updRecord_frame (i : SlotNo) (f : Record → Record) :
    s.SameOuter (s.updRecord i f) ∧ (s.updRecord i f).poll = s.poll ∧ (s.updRecord i f).trunk = s.trunk
      ∧ (s.updRecord i f).adm = s.adm ∧ (s.updRecord i f).pool = s.pool
      ∧ ∀ ch, (s.updRecord i f).port ch = s.port ch := by
  unfold State.updRecord
  split <;> exact ⟨⟨rfl, rfl, rfl, rfl⟩, rfl, rfl, rfl, rfl, fun ch => by cases ch <;> rfl⟩

/-! ### Posting -/

theorem State.joinChangeList_frame (ch : Channel) (i : SlotNo) :
    s.SameOuter (s.joinChangeList ch i) ∧ (s.joinChangeList ch i).registry = s.registry
      ∧ (s.joinChangeList ch i).poll = s.poll ∧ (s.joinChangeList ch i).trunk = s.trunk
      ∧ (s.joinChangeList ch i).adm = s.adm ∧ (s.joinChangeList ch i).pool = s.pool := by
  cases ch <;> exact ⟨⟨rfl, rfl, rfl, rfl⟩, rfl, rfl, rfl, rfl, rfl⟩

/-- Posting changes one record and one Change List at most (R177). -/
theorem State.post_frame (i : SlotNo) (why : Reason) :
    s.SameOuter (s.post i why) ∧ (s.post i why).poll = s.poll ∧ (s.post i why).trunk = s.trunk
      ∧ (s.post i why).adm = s.adm ∧ (s.post i why).pool = s.pool
      ∧ ∀ ch, (s.post i why).port ch
        = { s.port ch with changeList := ((s.post i why).port ch).changeList } := by
  unfold State.post
  split
  · exact ⟨.refl s, rfl, rfl, rfl, rfl, fun _ => rfl⟩
  · next r _ =>
    split
    · exact ⟨.refl s, rfl, rfl, rfl, rfl, fun _ => rfl⟩
    · dsimp only
      split
      · rcases r.owner <;>
          exact ⟨⟨rfl, rfl, rfl, rfl⟩, rfl, rfl, rfl, rfl, fun ch => by cases ch <;> rfl⟩
      · exact ⟨⟨rfl, rfl, rfl, rfl⟩, rfl, rfl, rfl, rfl, fun ch => by cases ch <;> rfl⟩

/-- Posting to one record leaves every other slot alone, and every generation. -/
theorem State.slot_post (i j : SlotNo) (why : Reason) (h : j ≠ i) : (s.post i why).slot j = s.slot j := by
  unfold State.post
  split
  · rfl
  · dsimp only
    split
    · rfl
    · split <;> simp [State.joinChangeList, State.slot_setRecord, Ne.symm h]

/-! ### Buffers -/

theorem State.freeUndelivered_frame (i : SlotNo) (bs : List BufNo) : ∀ s : State,
    s.SameOuter (s.freeUndelivered i bs) ∧ (s.freeUndelivered i bs).poll = s.poll
      ∧ (s.freeUndelivered i bs).trunk = s.trunk ∧ (s.freeUndelivered i bs).adm = s.adm
      ∧ (s.freeUndelivered i bs).pool.mem = s.pool.mem
      ∧ (s.freeUndelivered i bs).pool.reserveFloor = s.pool.reserveFloor
      ∧ (s.freeUndelivered i bs).pool.free = s.pool.free ++ bs := by
  induction bs with
  | nil => exact fun s => ⟨.refl s, rfl, rfl, rfl, rfl, rfl, by simp [State.freeUndelivered]⟩
  | cons b bs ih =>
    intro s
    obtain ⟨h1, h2, h3, h4, h5, h6, h7⟩ := ih ((s.freeBuffer b).post i .undelivered)
    obtain ⟨p1, p2, p3, p4, p5, -⟩ := State.post_frame (s.freeBuffer b) i .undelivered
    refine ⟨.trans ⟨rfl, rfl, rfl, rfl⟩ (.trans p1 h1), h2.trans p2, h3.trans p3, h4.trans p4, ?_, ?_, ?_⟩
    · exact h5.trans (by rw [p5]; rfl)
    · exact h6.trans (by rw [p5]; rfl)
    · refine h7.trans ?_
      rw [p5]
      simp [State.free_freeBuffer]

/-! ### The Ring -/

theorem State.removeRing_frame (i : SlotNo) :
    s.SameOuter (s.removeRing i) ∧ (s.removeRing i).registry = s.registry ∧ (s.removeRing i).trunk = s.trunk
      ∧ (s.removeRing i).adm = s.adm ∧ (s.removeRing i).pool = s.pool ∧ (s.removeRing i).poll.ring = s.poll.ring.erase i
      ∧ ∀ ch, (s.removeRing i).port ch = s.port ch := by
  unfold State.removeRing
  split
  · exact ⟨⟨rfl, rfl, rfl, rfl⟩, rfl, rfl, rfl, rfl, rfl, fun ch => by cases ch <;> rfl⟩
  · next h => exact ⟨.refl s, rfl, rfl, rfl, rfl, (List.erase_of_not_mem h).symm, fun _ => rfl⟩

/-! ### Retirement -/

theorem State.enterRetired_frame (i : SlotNo) :
    s.SameOuter (s.enterRetired i) ∧ (s.enterRetired i).poll = s.poll ∧ (s.enterRetired i).trunk = s.trunk
      ∧ (s.enterRetired i).adm = s.adm ∧ (s.enterRetired i).pool = s.pool := by
  unfold State.enterRetired
  split
  · exact ⟨.refl s, rfl, rfl, rfl, rfl⟩
  · next r _ =>
    have u1 := State.updRecord_frame (s.setIndex r.address none) i fun r => { r with dismissPending := none }
    have p := State.post_frame ((s.setIndex r.address none).updRecord i fun r => { r with dismissPending := none }) i
      .retired
    have u2 := State.updRecord_frame
      (((s.setIndex r.address none).updRecord i fun r => { r with dismissPending := none }).post i .retired) i
      fun r => { r with state := .retired }
    exact ⟨.trans (.trans (.trans ⟨rfl, rfl, rfl, rfl⟩ u1.1) p.1) u2.1, u2.2.1.trans (p.2.1.trans u1.2.1),
      u2.2.2.1.trans (p.2.2.1.trans u1.2.2.1), u2.2.2.2.1.trans (p.2.2.2.1.trans u1.2.2.2.1),
      u2.2.2.2.2.1.trans (p.2.2.2.2.1.trans u1.2.2.2.2.1)⟩

theorem State.settleRetiring_frame (i : SlotNo) :
    s.SameOuter (s.settleRetiring i) ∧ (s.settleRetiring i).poll = s.poll ∧ (s.settleRetiring i).trunk = s.trunk
      ∧ (s.settleRetiring i).adm = s.adm ∧ (s.settleRetiring i).pool = s.pool := by
  unfold State.settleRetiring
  split
  · split
    · exact State.enterRetired_frame s i
    · exact ⟨.refl s, rfl, rfl, rfl, rfl⟩
  · exact ⟨.refl s, rfl, rfl, rfl, rfl⟩

/-- A RETIRING record settles when no exchange holds it and its dismissal is not pending (R22). -/
theorem State.settleRetiring_of (i : SlotNo) (r : Record) (h : s.record i = some r) (h1 : r.state = .retiring)
    (h2 : r.dismissPending = some false) (h3 : s.holds i = false) : s.settleRetiring i = s.enterRetired i := by
  simp [State.settleRetiring, h, h1, h2, h3]

/-! ### New records and admissions -/

/-- A record is created in the slot at the head of the Free Slot List, or there is none (R3, R4, R7). -/
theorem State.createRecord_cases (r : Record) :
    (s.registry.freeSlots = [] ∧ s.createRecord r = none)
      ∨ ∃ i rest, s.registry.freeSlots = i :: rest
        ∧ s.createRecord r = some (i, { s with registry := { s.registry with
            slots := s.registry.slots.set i { gen := (s.slot i).gen + 1, record := some r }
            addressIndex := s.registry.addressIndex.set r.address.toFin (some i)
            freeSlots := rest } }) := by
  unfold State.createRecord
  split
  · next h => exact .inl ⟨h, rfl⟩
  · next i rest h => exact .inr ⟨i, rest, h, rfl⟩

/-- An admission attempt that succeeds took the head of the Free Slot List and an address of the allocator (R144). -/
theorem State.attempt_cases {t : State} (identity : List Byte) (cls : Class) (owner : Channel)
    (h : s.attempt identity cls owner = some t) :
    ∃ a i rest, s.allocateAddress = some a ∧ s.registry.freeSlots = i :: rest
      ∧ t = { s with
          registry := { s.registry with
            slots := s.registry.slots.set i
              { gen := (s.slot i).gen + 1, record := some (Record.fresh .admitting a identity cls owner) }
            addressIndex := s.registry.addressIndex.set a.toFin (some i)
            freeSlots := rest
            admitQueue := s.registry.admitQueue ++ [i] }
          adm := { s.adm with candidates := s.adm.candidates.filter fun c => c.identity ≠ identity } } := by
  unfold State.attempt at h
  split at h
  · cases h
  · next a ha =>
    rcases State.createRecord_cases s (Record.fresh .admitting a identity cls owner) with ⟨-, e⟩ | ⟨i, rest, hf, e⟩
    · simp [State.admitAt, e] at h
    · simp only [State.admitAt, e, Option.map_some, Option.some.injEq] at h
      exact ⟨a, i, rest, ha, hf, h.symm⟩

theorem State.attempt_frame {t : State} (identity : List Byte) (cls : Class) (owner : Channel)
    (h : s.attempt identity cls owner = some t) :
    s.SameOuter t ∧ t.poll = s.poll ∧ t.trunk = s.trunk ∧ t.pool = s.pool ∧ t.port0 = s.port0 ∧ t.port1 = s.port1 := by
  obtain ⟨a, i, rest, -, -, rfl⟩ := State.attempt_cases s identity cls owner h
  exact ⟨⟨rfl, rfl, rfl, rfl⟩, rfl, rfl, rfl, rfl, rfl⟩

theorem State.retryAmong_frame (cs : List Candidate) : ∀ s : State,
    s.SameOuter (s.retryAmong cs).1 ∧ (s.retryAmong cs).1.poll = s.poll ∧ (s.retryAmong cs).1.trunk = s.trunk
      ∧ (s.retryAmong cs).1.pool = s.pool ∧ (s.retryAmong cs).1.port0 = s.port0
      ∧ (s.retryAmong cs).1.port1 = s.port1 := by
  induction cs with
  | nil => exact fun s => ⟨.refl s, rfl, rfl, rfl, rfl, rfl⟩
  | cons c cs ih =>
    intro s
    unfold State.retryAmong
    split
    · exact ih s
    · split
      · exact ⟨.refl s, rfl, rfl, rfl, rfl, rfl⟩
      · next s1 h =>
        obtain ⟨a1, a2, a3, a4, a5, a6⟩ := State.attempt_frame s _ _ _ h
        obtain ⟨b1, b2, b3, b4, b5, b6⟩ := ih s1
        exact ⟨a1.trans b1, b2.trans a2, b3.trans a3, b4.trans a4, b5.trans a5, b6.trans a6⟩

/-! ### Choices -/

theorem State.visit_frame (i : SlotNo) :
    s.SameOuter (s.visit i).1 ∧ (s.visit i).1.trunk = s.trunk ∧ (s.visit i).1.adm = s.adm
      ∧ (s.visit i).1.pool = s.pool ∧ (s.visit i).1.port0 = s.port0 ∧ (s.visit i).1.port1 = s.port1 := by
  unfold State.visit
  split <;> exact ⟨⟨rfl, rfl, rfl, rfl⟩, rfl, rfl, rfl, rfl, rfl⟩

theorem State.visitFrom_frame (l : List SlotNo) : ∀ s : State,
    s.SameOuter (s.visitFrom l).1 ∧ (s.visitFrom l).1.trunk = s.trunk ∧ (s.visitFrom l).1.adm = s.adm
      ∧ (s.visitFrom l).1.pool = s.pool ∧ (s.visitFrom l).1.port0 = s.port0
      ∧ (s.visitFrom l).1.port1 = s.port1 := by
  induction l with
  | nil => exact fun s => ⟨⟨rfl, rfl, rfl, rfl⟩, rfl, rfl, rfl, rfl, rfl⟩
  | cons i l ih =>
    intro s
    obtain ⟨v1, v2, v3, v4, v5, v6⟩ := State.visit_frame s i
    unfold State.visitFrom
    dsimp only
    split
    · split
      · exact ⟨.trans v1 ⟨rfl, rfl, rfl, rfl⟩, v2, v3, v4, v5, v6⟩
      · exact ⟨v1, v2, v3, v4, v5, v6⟩
    · obtain ⟨b1, b2, b3, b4, b5, b6⟩ := ih (s.visit i).1
      exact ⟨v1.trans b1, b2.trans v2, b3.trans v3, b4.trans v4, b5.trans v5, b6.trans v6⟩

theorem State.requestMember_frame :
    s.SameOuter s.requestMember.1 ∧ s.requestMember.1.trunk = s.trunk ∧ s.requestMember.1.adm = s.adm
      ∧ s.requestMember.1.pool = s.pool ∧ s.requestMember.1.port0 = s.port0
      ∧ s.requestMember.1.port1 = s.port1 := by
  unfold State.requestMember
  split
  · exact ⟨.refl s, rfl, rfl, rfl, rfl, rfl⟩
  · exact State.visitFrom_frame _ s

/-- An exchange with a due member reserves at most the head of the free buffer list, and begins. -/
theorem State.beginPollData_frame (i : SlotNo) (r : Record) :
    s.SameOuter (s.beginPollData i r) ∧ (s.beginPollData i r).registry = s.registry
      ∧ (s.beginPollData i r).poll = s.poll ∧ (s.beginPollData i r).adm = s.adm
      ∧ (s.beginPollData i r).port0 = s.port0 ∧ (s.beginPollData i r).port1 = s.port1
      ∧ (s.beginPollData i r).pool.mem = s.pool.mem := by
  unfold State.beginPollData State.reserve
  rcases s.pool.free with _ | ⟨b, rest⟩ <;> dsimp only <;> split <;>
    exact ⟨⟨rfl, rfl, rfl, rfl⟩, rfl, rfl, rfl, rfl, rfl, rfl⟩

/-- A choice leaves the channels, the memory of the buffers and the model's own parts alone, whatever follows an answer
of PASS ENDED does too. -/
theorem State.chooseWith_frame (k : State → State)
    (hk : ∀ s : State, s.SameOuter (k s) ∧ (k s).port0 = s.port0 ∧ (k s).port1 = s.port1
      ∧ (k s).pool.mem = s.pool.mem) :
    s.SameOuter (s.chooseWith k) ∧ (s.chooseWith k).port0 = s.port0 ∧ (s.chooseWith k).port1 = s.port1
      ∧ (s.chooseWith k).pool.mem = s.pool.mem := by
  obtain ⟨r1, -, -, r4, r5, r6⟩ := State.requestMember_frame s
  unfold State.chooseWith
  split
  · split <;> exact ⟨⟨rfl, rfl, rfl, rfl⟩, rfl, rfl, rfl⟩
  · split <;> exact ⟨⟨rfl, rfl, rfl, rfl⟩, rfl, rfl, rfl⟩
  · split
    · exact ⟨⟨rfl, rfl, rfl, rfl⟩, rfl, rfl, rfl⟩
    · dsimp only
      split
      · split
        · next i _ _ r _ =>
          obtain ⟨b1, -, -, -, b5, b6, b7⟩ := State.beginPollData_frame s.requestMember.1 i r
          exact ⟨r1.trans b1, b5.trans r5, b6.trans r6, b7.trans (by rw [r4])⟩
        · exact ⟨r1, r5, r6, by rw [r4]⟩
      · obtain ⟨k1, k2, k3, k4⟩ := hk s.requestMember.1
        exact ⟨r1.trans k1, k2.trans r5, k3.trans r6, k4.trans (by rw [r4])⟩
      · exact ⟨r1, r5, r6, by rw [r4]⟩

theorem State.choose_frame :
    s.SameOuter s.choose ∧ s.choose.port0 = s.port0 ∧ s.choose.port1 = s.port1 ∧ s.choose.pool.mem = s.pool.mem :=
  State.chooseWith_frame s _ fun t =>
    State.chooseWith_frame t id fun u => ⟨.refl u, rfl, rfl, rfl⟩

theorem State.wake_frame :
    s.SameOuter s.wake ∧ s.wake.port0 = s.port0 ∧ s.wake.port1 = s.port1 ∧ s.wake.pool.mem = s.pool.mem := by
  unfold State.wake
  split
  · exact State.choose_frame s
  · exact ⟨.refl s, rfl, rfl, rfl⟩

/-! ### The receiver outside a reply window -/

/-- One bit of the hunt keeps a stray frame within its header, or within the longest payload and check. -/
theorem Hunt.hear_ok (h : Hunt) (b : Bool) (hok : h.ok = true) : (h.hear b).1.ok = true := by
  cases h with
  | seeking last => unfold Hunt.hear; dsimp only; split <;> rfl
  | header taken last =>
    unfold Hunt.hear; dsimp only
    split
    · simp [Hunt.ok]; omega
    · split
      · rfl
      · simp [Hunt.ok, within]; omega
  | discarding left =>
    simp only [Hunt.ok, within, decide_eq_true_eq] at hok
    unfold Hunt.hear; dsimp only
    split
    · simp only [Hunt.ok, within, decide_eq_true_eq]; omega
    · rfl

/-- The receiver changes how far its hunt is and the STRAY counter alone. -/
theorem State.hearBits_eq (bits : List Bool) : ∃ h n, s.hearBits bits =
    { s with trunk := { s.trunk with hunt := h, counters := { s.trunk.counters with stray := n } } } := by
  induction bits generalizing s with
  | nil => exact ⟨_, _, rfl⟩
  | cons b bits ih =>
    unfold State.hearBits; dsimp only
    split
    · obtain ⟨h, n, e⟩ := ih ((s.updTrunk fun t => { t with hunt := (s.trunk.hunt.hear b).1 }).updCounters
        fun c => { c with stray := countUp c.stray })
      exact ⟨h, n, e⟩
    · obtain ⟨h, n, e⟩ := ih (s.updTrunk fun t => { t with hunt := (s.trunk.hunt.hear b).1 })
      exact ⟨h, n, e⟩

/-- A stray frame given without bits changes the hunt and the STRAY counter alone. -/
theorem State.passStray_eq : ∃ h n, s.passStray =
    { s with trunk := { s.trunk with hunt := h, counters := { s.trunk.counters with stray := n } } } := by
  unfold State.passStray
  split <;> exact ⟨_, _, rfl⟩

/-- A valid DATA's length goes into the reserved buffer, and nothing else changes. -/
theorem State.takeLength_eq (reply : Reply) : s.takeLength reply = s ∨
    ∃ x b n, s.trunk.current = some x ∧ x.reserved = some b ∧ reply.kind = .data n
      ∧ s.takeLength reply = s.setBuffer b { s.buffer b with length := n } := by
  unfold State.takeLength
  split
  · next k g ns ob b n hx hk => exact .inr ⟨_, _, _, hx, rfl, hk, rfl⟩
  · exact .inl rfl

/-- A reserved buffer that a valid DATA left FREE has its length of before, and nothing else changes. -/
theorem State.returnLength_eq (before : State) (reply : Reply) : s.returnLength before reply = s ∨
    ∃ x b, before.trunk.current = some x ∧ x.reserved = some b ∧ (s.buffer b).place = .free
      ∧ s.returnLength before reply = s.setBuffer b { s.buffer b with length := (before.buffer b).length } := by
  unfold State.returnLength
  split
  · next k g ns ob b n hx hk =>
    split
    · next hp => exact .inr ⟨_, _, hx, rfl, hp, rfl⟩
    all_goals exact .inl rfl
  · exact .inl rfl

/-- A reception dropped while a buffer is reserved takes the front of replyIn, and writes into that buffer the payload
of a DATA that had arrived; nothing else changes. -/
theorem State.dropReception_eq : s.dropReception = s ∨
    ∃ x b, s.trunk.current = some x ∧ x.reserved = some b ∧ s.trunk.receiving = true
      ∧ s.dropReception = { s.writeBuffer b (dataPayloadTaken (s.trunk.replyIn.headD []) true) with
          trunk := { s.trunk with replyIn := s.trunk.replyIn.tail } } := by
  unfold State.dropReception
  split
  · next hx =>
    split
    · next hr => exact .inr ⟨_, _, hx, rfl, hr, by simp [State.takePayload, hx, State.updTrunk, State.writeBuffer]⟩
    · exact .inl rfl
  · exact .inl rfl

/-! ### The lapse step -/

/-- The lapse step in the three sentences of R132 step 2: the lapses step, those at or above the limit go, and the heard
candidate's becomes 0. -/
theorem Candidate.lapseStep_filterMap (limit : Nat) (heard : Option (List Byte)) (cs : List Candidate) :
    cs.filterMap (Candidate.lapseStep limit heard) =
      ((cs.map fun c => { c with lapse := if heard = some c.identity then c.lapse else c.lapse + 1 }).filter
        fun c => c.lapse < limit).map fun c => { c with lapse := if heard = some c.identity then 0 else c.lapse } := by
  induction cs with
  | nil => rfl
  | cons c cs ih =>
    by_cases hh : heard = some c.identity <;> simp only [List.filterMap_cons, Candidate.lapseStep, hh, if_true, if_false]
    · by_cases hl : limit ≤ c.lapse
      · simp [hl, ih, Nat.not_lt.2 hl, ← hh]
      · simp [hl, ih, Nat.lt_of_not_le hl, ← hh]
    · by_cases hl : limit ≤ c.lapse + 1
      · simp [hl, ih, hh, Nat.not_lt.2 hl]
      · simp [hl, ih, hh, Nat.lt_of_not_le hl]

/-! ### Reset -/

/-- The memory of the buffers after a pin reset is in canonical form. -/
theorem State.reset_mem_wf : Memory.wf State.reset.pool.mem = true := rfl

end Sys2Proof.Machine
end

