-- ==== Sys2Proof/WellFormed.lean ====
section
/-! DEFINITION. Which terms of Instr are events the table's rows describe. -/

namespace Sys2Proof

/-- A received frame opens with its first space bit: it has a first byte, and that byte's first bit on the line, bit 0,
is a space, 0 (R56, R63, R64). -/
def startsWithSpace : List Byte → Bool
  | [] => false
  | b :: _ => !b.getLsbD 0

/-- The checks: a BAD_COMMAND's code is not assigned (R193); a REGISTER_WRITE names a location without its own row
(offsets 7 to 10 have one, spec/09 9.1); a received frame begins with a space bit. -/
def Instr.wellFormed : Instr → Bool
  | .badCommand _ _ code => !codeAssigned code
  | .registerWrite addr _ => let off := addr.toNat % 16; off < 7 || 10 < off
  | .replyReceived bytes => startsWithSpace bytes
  | .joinFrame bytes => startsWithSpace bytes
  | .enrol _ _ | .retire _ _ | .suspend _ _ | .resume _ _ | .setClass _ _ | .transfer _ _ | .readStation _ _
  | .readIdentity _ _ | .findAddress _ _ | .findIdentity _ _ | .nextStation _ _ | .setPolling _ _
  | .configureLine _ _ | .readLineStatus _ _ | .startLine _ _ | .stopLine _ _ | .setHealth _ _ | .clearHold _ _
  | .setAdmission _ _ | .writeFilter _ _ | .readFilter _ _ | .readCandidate _ _ | .approve _ _ | .reject _ _
  | .allocate _ _ | .release _ _ | .send _ _ | .takeMessage _ _ | .setReserve _ _ | .takeChange _ _
  | .resetRegistry _ _ | .interruptCauseWrite _ _ | .interruptEnableWrite _ _ | .windowSelectWrite _ _
  | .windowDataRead _ | .windowDataWrite _ _ | .pinReset _ | .frameSent | .dismissSent | .replyTimeout
  | .joinWindowExpiry | .clockLoss _ | .guardExpiry | .strayFrame | .holdExpiry _ | .idleExpiry
  | .replyFirstSpaceBit => true

end Sys2Proof
end

