-- ==== Sys2Proof/Tests/Slice0.lean ====
section
/-! SUPPORT. Tests of the model, each one step on a small state, with expected results from the spec; and, for each
statement with hypotheses, a concrete state and operands that meet them. -/

namespace Sys2Proof.Tests

-- One theorem at a time: elaborated side by side, their evaluations take more threads than the memory limit allows.
set_option Elab.async false

open Sys2Proof.Machine

/-! ### WellFormed -/

theorem test_wf_bad_command_assigned : (Instr.badCommand .ch0 0 0x10).wellFormed = false := by decide
theorem test_wf_bad_command : (Instr.badCommand .ch0 0 0x00).wellFormed = true := by decide
theorem test_wf_register_write_own_row : (Instr.registerWrite 0x17 0).wellFormed = false := by decide
theorem test_wf_register_write : (Instr.registerWrite 0x0B 0).wellFormed = true := by decide
theorem test_wf_reply_empty : (Instr.replyReceived []).wellFormed = false := by decide
theorem test_wf_reply_mark_first : (Instr.replyReceived [0x5B]).wellFormed = false := by decide
theorem test_wf_join_mark_first : (Instr.joinFrame [0x01]).wellFormed = false := by decide

/-! ### Small states -/

/-- One step on a state, and a test of the state it answers. -/
def ran (c : Instr) (s : State) (p : State → Bool) : Bool :=
  match exec c s with
  | .next t => p t
  | .fault f => nomatch f
  | .refused _ => false

/-- A state with a channel's W1 to W6. -/
def words (s : State) (ch : Channel) (ws : List Nat) : State :=
  s.setPort ch { s.port ch with words := sixWords (ws.map (BitVec.ofNat 16)) }

/-- An ACTIVE, SLOW station of Channel 0 at address 5. -/
def station : Record := Record.fresh .active 5 [1, 2] .slow .ch0

/-- A new record in slot 0, with generation 1, and the state of its registry collections but the Ring and queues. -/
def created (r : Record) : State :=
  match State.reset.createRecord r with
  | some (_, s) => s
  | none => State.reset

/-- The station alone on the Ring. -/
def oneStation : State := (created station).appendRing 0

/-- The station's record replaced. -/
def withStation (r : Record) : State := oneStation.setRecord 0 (some r)

/-- A buffer HELD by a channel. -/
def held (s : State) (ch : Channel) (b : BufNo) : State :=
  let s1 := s.setPlace b (.held ch)
  { s1 with pool := { s1.pool with free := s1.pool.free.erase b } }

/-- The handle argument of slot 0 with generation 1. -/
def slot0 : Nat := 0x0100

/-- Slot 0 with generation 1. -/
def handle0 : Handle := { slot := 0, gen := 1 }

/-- A state with an exchange on the line. -/
def onLine (s : State) (line : LineState) (x : Exchange) : State :=
  { s with trunk := { s.trunk with line := line, current := some x, replyTimer := some 25 } }

/-- A POLL of the station with a reserved buffer. -/
def poll0 : Exchange := { kind := .poll, target := some handle0, sentNS := some 0, outbound := none, reserved := some 9 }

/-- A DATA exchange of the station that carries buffer 8. -/
def data0 : Exchange := { poll0 with kind := .data, outbound := some 8 }

/-- The station with buffer 8 on its outbound queue. -/
def sender : Record := { station with outq := [8], headAttempts := some 0 }

/-- The station polled, its reply awaited. -/
def polled : State := onLine oneStation .awaiting poll0

/-- The station sent a message, its reply awaited. -/
def sent : State := onLine (withStation sender) .awaiting data0

/-- An invitation on the line. -/
def invite0 : Exchange := { kind := .invite, target := none, sentNS := none, outbound := none, reserved := none }

/-- A join window. -/
def invited : State := onLine State.reset .awaiting invite0

/-- An ADMITTING record in slot 0. -/
def admitting : Record := Record.fresh .admitting 5 [1, 2] .fast .ch1

/-- The ADMIT exchange of it, its reply awaited. -/
def asked : State :=
  onLine ((created admitting).joinAdmit 0) .awaiting { invite0 with kind := .admitExchange, target := some handle0 }

/-- The station RETIRING. -/
def leaving (dismiss : Bool) : Record :=
  { (station.retireFields .host []) with state := .retiring, dismissPending := some dismiss }

/-- The station RETIRED, its change entry waiting. -/
def gone : Record := { leaving false with state := .retired, dismissPending := none, reasons := 0x100 }

/-- A reply of the station: kind code, N(S), N(R), payload. -/
def reply (kind : BitVec 4) (ns nr : BitVec 3) (payload : List Byte) : List Byte :=
  frameBytes 5 kind 0 (seqByte ns nr) payload

/-- A candidate with ticket 7. -/
def candidate : Candidate := { ticket := 7, identity := [9], disposition := .deferred .fast .ch1, lapse := 3 }

/-- A state with candidates. -/
def withCandidates (s : State) (cs : List Candidate) : State := s.updAdm fun a => { a with candidates := cs }

/-- The result code of a channel. -/
def result (t : State) (ch : Channel) : ResultCode := (t.port ch).result

/-- A channel's first result words. -/
def results (t : State) (ch : Channel) (n : Nat) : List Word := (t.port ch).words.toList.take n

/-! ### Tests -/

/-- The check of the nine characters 1 to 9 (R57). -/
theorem test_crc_check_value : crc [0x31, 0x32, 0x33, 0x34, 0x35, 0x36, 0x37, 0x38, 0x39] = 0x29B1 := by decide +kernel

theorem test_enrol_first_handle :
    ran (.enrol .ch0 0) (words (held State.reset .ch0 3) .ch0 [254, 0x0100, 16, 3]) (fun t =>
      decide (result t .ch0 = .ok ∧ results t .ch0 1 = [0x0100] ∧ t.poll.ring = [0] ∧ t.lookup 254 = some 0)) = true := by
  decide +kernel

theorem test_enrol_buffer_not_held :
    ran (.enrol .ch0 0) (words State.reset .ch0 [1, 0, 1, 31]) (fun t => decide (result t .ch0 = .notHeld)) = true := by
  decide +kernel

theorem test_retire_unheld_is_retired :
    ran (.retire .ch0 0) (words oneStation .ch0 [slot0]) (fun t =>
      decide (results t .ch0 1 = [6] ∧ t.port0.changeList = [0] ∧ t.lookup 5 = none ∧ t.poll.ring = [])) = true := by
  decide +kernel

theorem test_retire_dismiss_waits_while_off :
    ran (.retire .ch0 1) (words oneStation .ch0 [slot0]) (fun t =>
      decide (results t .ch0 1 = [5] ∧ t.registry.dismissQueue = [0] ∧ t.trunk.line = .off)) = true := by
  decide +kernel

theorem test_suspend_keeps_skip_and_ring :
    ran (.suspend .ch0 0) (words (withStation { station with skip := some 2 }) .ch0 [slot0]) (fun t =>
      (t.record 0).any fun r => decide (r.state = .suspended ∧ r.skip = some 2 ∧ t.poll.ring = [0])) = true := by
  decide +kernel

theorem test_resume_clears_counts :
    ran (.resume .ch0 0) (words (withStation { station with state := .suspended, skip := some 2, missCount := some 9 })
      .ch0 [slot0]) (fun t =>
        (t.record 0).any fun r => decide (r.state = .active ∧ r.skip = some 0 ∧ r.missCount = some 0)) = true := by
  decide +kernel

theorem test_set_class_slow_reloads_skip :
    ran (.setClass .ch0 0) (words (withStation { station with cls := .fast }) .ch0 [slot0, 1]) (fun t =>
      (t.record 0).any fun r => decide (r.cls = .slow ∧ r.skip = some 3)) = true := by
  decide +kernel

theorem test_transfer_moves_change_entry :
    ran (.transfer .ch0 0) (words (withStation station) .ch0 [slot0, 1]) (fun t =>
      decide (t.port1.changeList = [0] ∧ t.recordIs 0 (fun r => r.owner == .ch1 && r.reasons == 0x80) = true)) = true := by
  decide +kernel

theorem test_read_station_words :
    ran (.readStation .ch1 0) (words oneStation .ch1 [slot0]) (fun t =>
      decide (results t .ch1 6 = [0x4205, 0, 0, 0, 0, 0])) = true := by
  decide +kernel

theorem test_read_identity_sets_length :
    ran (.readIdentity .ch0 0) (words (held oneStation .ch0 31) .ch0 [slot0, 31]) (fun t =>
      decide (results t .ch0 1 = [2] ∧ (t.buffer 31).length = 2 ∧ t.bufferBytes 31 3 = [1, 2, 0])) = true := by
  decide +kernel

theorem test_find_address : ran (.findAddress .ch1 0) (words oneStation .ch1 [5]) (fun t =>
    decide (results t .ch1 2 = [0x0100, 2])) = true := by decide +kernel

theorem test_find_identity_length_differs :
    ran (.findIdentity .ch0 0) (words (held oneStation .ch0 3) .ch0 [1, 3]) (fun t =>
      decide (result t .ch0 = .notFound)) = true := by decide +kernel

theorem test_next_station_does_not_wrap : ran (.nextStation .ch0 0) (words oneStation .ch0 [1]) (fun t =>
    decide (result t .ch0 = .notFound)) = true := by decide +kernel

theorem test_set_polling_lowers_skip :
    ran (.setPolling .ch0 0) (words (withStation { station with skip := some 3 }) .ch0 [2]) (fun t =>
      decide (t.recordIs 0 (fun r => r.skip == some 1) = true ∧ results t .ch0 2 = [2, 1])) = true := by
  decide +kernel

theorem test_configure_line_refused_while_idle :
    ran (.configureLine .ch0 0) (words { State.reset with trunk := { State.reset.trunk with line := .idle } } .ch0
      [2, 1, 255, 1, 8]) (fun t => decide (result t .ch0 = .lineActive)) = true := by decide

theorem test_configure_line_extremes :
    ran (.configureLine .ch0 0) (words State.reset .ch0 [4095, 1, 255, 1, 8]) (fun t =>
      decide (t.trunk.config = ⟨4095, .external, 255, 1, 8⟩)) = true := by decide

theorem test_read_line_status_clear_refused_on_channel1 :
    ran (.readLineStatus .ch1 2) State.reset (fun t => decide (result t .ch1 = .notPermitted)) = true := by decide

theorem test_start_line_empty_ring_idles :
    ran (.startLine .ch0 0) State.reset (fun t =>
      decide (t.trunk.line = .idle ∧ t.poll.idle = some 1843200 ∧ t.poll.passCount = 1)) = true := by decide

theorem test_start_line_polls_the_station :
    ran (.startLine .ch0 0) oneStation (fun t =>
      decide (t.trunk.line = .sending ∧ t.trunk.frame.take 6 = [0x5A, 0xC3, 5, 0x10, 0, 0])) = true := by
  decide +kernel

theorem test_stop_line_abort_ends_exchange :
    ran (.stopLine .ch1 1) (onLine oneStation .sending poll0) (fun t =>
      decide (results t .ch1 2 = [2, 1] ∧ t.trunk.line = .off ∧ t.pool.free.getLast? = some 9)) = true := by
  decide +kernel

theorem test_stop_line_drain_stays_executing :
    ran (.stopLine .ch0 2) (onLine oneStation .awaiting poll0) (fun t =>
      decide (t.port0.state = .executing ∧ t.trunk.line = .awaiting ∧ t.trunk.drain.isSome = true)) = true := by
  decide +kernel

theorem test_set_health_range :
    ran (.setHealth .ch0 0) (words State.reset .ch0 [16, 0, 1, 1]) (fun t =>
      decide (result t .ch0 = .badArgument)) = true := by decide

theorem test_clear_hold_rounds_up :
    ran (.clearHold .ch0 0) (words (withStation { station with hold := some 1843201 }) .ch0 [slot0]) (fun t =>
      decide (results t .ch0 2 = [1, 2] ∧ t.recordIs 0 (fun r => r.reasons == 0x10) = true)) = true := by
  decide +kernel

theorem test_set_admission_reloads_countdown :
    ran (.setAdmission .ch0 0) (words State.reset .ch0 [7, 3, 255, 1, 254]) (fun t =>
      decide (t.poll.countdown = 7 ∧ results t .ch0 5 = [7, 3, 255, 1, 254])) = true := by decide +kernel

theorem test_set_admission_bounds_crossed :
    ran (.setAdmission .ch0 0) (words State.reset .ch0 [7, 3, 255, 2, 1]) (fun t =>
      decide (result t .ch0 = .badArgument)) = true := by decide

theorem test_write_filter_any :
    ran (.writeFilter .ch0 0) (words State.reset .ch0 [7, 0x0101, 0, 0, 0, 99]) (fun t =>
      decide (result t .ch0 = .ok ∧ t.adm.filters[7].enabled = true ∧ t.adm.filters[7].action = .admitIt)) = true := by
  decide

theorem test_read_filter_after_reset :
    ran (.readFilter .ch0 0) (words State.reset .ch0 [3, 31]) (fun t =>
      decide (results t .ch0 5 = [3, 0, 0, 0, 0])) = true := by decide

theorem test_read_candidate :
    ran (.readCandidate .ch0 0) (words (held (withCandidates State.reset [candidate]) .ch0 2) .ch0 [0, 2]) (fun t =>
      decide (results t .ch0 6 = [7, 1, 3, 1, 0x0100, 1])) = true := by decide +kernel

theorem test_approve_allocates_lowest :
    ran (.approve .ch0 0) (words (withCandidates State.reset [candidate]) .ch0 [7, 0x0001, 0]) (fun t =>
      decide (results t .ch0 2 = [0x0100, 1] ∧ t.adm.candidates = [] ∧ t.registry.admitQueue = [0])) = true := by
  decide +kernel

theorem test_reject_returns_disposition :
    ran (.reject .ch0 0) (words (withCandidates State.reset [candidate]) .ch0 [7]) (fun t =>
      decide (results t .ch0 1 = [1] ∧ t.adm.candidates = [])) = true := by decide

theorem test_allocate_head :
    ran (.allocate .ch1 0) State.reset (fun t =>
      decide (results t .ch1 2 = [0, 31] ∧ (t.buffer 0).place = .held .ch1)) = true := by decide

theorem test_release_joins_tail :
    ran (.release .ch0 0) (words (held State.reset .ch0 0) .ch0 [0]) (fun t =>
      decide (results t .ch0 1 = [32] ∧ t.pool.free.getLast? = some 0)) = true := by decide

theorem test_release_other_channel :
    ran (.release .ch1 0) (words (held State.reset .ch0 0) .ch1 [0]) (fun t =>
      decide (result t .ch1 = .notHeld)) = true := by decide

theorem test_send_first_message :
    ran (.send .ch0 0) (words (held oneStation .ch0 8) .ch0 [slot0, 8, 120]) (fun t =>
      decide (results t .ch0 1 = [1] ∧ (t.buffer 8) = ⟨120, .queued 0⟩
        ∧ t.recordIs 0 (fun r => r.headAttempts == some 0) = true)) = true := by decide +kernel

/-- A delivered message, with source slot 0 of generation 1 at address 5. -/
def delivered : State :=
  { (State.reset.setBuffer 4 ⟨3, .delivered handle0 5⟩) with
    port1 := { State.reset.port1 with deliveryQueue := [4] } }

theorem test_take_message :
    ran (.takeMessage .ch1 0) delivered (fun t =>
      decide (results t .ch1 5 = [4, 3, 0x0100, 5, 0] ∧ (t.buffer 4).place = .held .ch1)) = true := by decide

theorem test_set_reserve_keep :
    ran (.setReserve .ch0 1) delivered (fun t =>
      decide (results t .ch0 6 = [2, 32, 0, 0, 0, 0x0100])) = true := by decide +kernel

/-- The RETIRED station's entry at the head of Channel 0's Change List. -/
def retired : State :=
  { (created gone).setIndex 5 none with port0 := { State.reset.port0 with changeList := [0] } }

theorem test_take_change_frees_retired :
    ran (.takeChange .ch0 0) retired (fun t =>
      decide (results t .ch0 4 = [0x0100, 0x0100, 0, 0x0106] ∧ (t.slot 0).gen = 1
        ∧ t.registry.freeSlots.getLast? = some 0)) = true := by decide +kernel

theorem test_reset_registry_discards_pending :
    ran (.resetRegistry .ch0 0) { oneStation with port1 := { oneStation.port1 with state := .pending } } (fun t =>
      decide (result t .ch1 = .aborted ∧ (t.slot 0).gen = 1 ∧ t.poll.ring = [])) = true := by decide +kernel

theorem test_bad_command : ran (.badCommand .ch1 0 0) State.reset (fun t =>
    decide (result t .ch1 = .badCommand ∧ (t.statusWord .ch1) = 0x0103)) = true := by decide

theorem test_cause_write_clears_done :
    ran (.interruptCauseWrite .ch0 0x0004) { State.reset with port0 := { State.reset.port0 with
      done := true, window := true } } (fun t => decide (t.causes .ch0 = 0x08)) = true := by decide

theorem test_enable_write_channel1 : ran (.interruptEnableWrite .ch1 0xFFFF) State.reset (fun t =>
    decide (t.port1.enables = 0x0F)) = true := by decide

theorem test_window_select_reads_back : ran (.windowSelectWrite .ch0 0xFFFF) State.reset (fun t =>
    decide (t.selectWord .ch0 = 0x1F7F)) = true := by decide

/-- Buffer 2 HELD by Channel 0 and selected at offset 127. -/
def windowEnd : State :=
  let s := held State.reset .ch0 2
  s.setPort .ch0 { s.port0 with winBuf := 2, winOff := 127 }

theorem test_window_write_wraps :
    ran (.windowDataWrite .ch0 0xAABB) windowEnd (fun t =>
      decide (t.pool.mem = [(256, 0xAA), (383, 0xBB)] ∧ t.port0.winOff = 1)) = true := by decide

theorem test_window_read_refused : ran (.windowDataRead .ch1) State.reset (fun t =>
    decide (t.port1.window = true ∧ t.port1.readData = 0)) = true := by decide

theorem test_register_write_argument : ran (.registerWrite 0x12 0xBEEF) State.reset (fun t =>
    decide (t.port1.words[1] = 0xBEEF)) = true := by decide

theorem test_register_write_command_overrun :
    ran (.registerWrite 0 0x0061) { State.reset with port0 := { State.reset.port0 with state := .executing } }
      (fun t => decide (t.port0.overrun = true ∧ t.port0.state = .executing)) = true := by decide

theorem test_pin_reset : ran (.pinReset true) oneStation (fun t =>
    decide ((t.slot 0).gen = 0 ∧ t.resetIn = true)) = true := by decide

theorem test_frame_sent_opens_reply_window :
    ran .frameSent (onLine oneStation .sending poll0) (fun t =>
      decide (t.trunk.line = .awaiting ∧ t.trunk.replyTimer = some 368640)) = true := by decide

theorem test_dismiss_sent_retires :
    ran .dismissSent (onLine ((withStation (leaving true)).joinDismiss 0) .sending
      { invite0 with kind := .dismiss, target := some handle0 }) (fun t =>
        decide (t.recordIs 0 (fun r => r.state == .retired) = true ∧ t.registry.dismissQueue = []
          ∧ t.trunk.line = .guard)) = true := by decide +kernel

theorem test_data_reply_delivered :
    ran (.replyReceived (reply 9 0 0 [0xAB])) polled (fun t =>
      decide (t.port0.deliveryQueue = [9] ∧ (t.buffer 9).length = 1 ∧ t.bufferBytes 9 1 = [0xAB]
        ∧ t.recordIs 0 (fun r => r.recvSeq == 1 && r.replies == 1) = true)) = true := by decide +kernel

theorem test_idle_reply_acknowledges :
    ran (.replyReceived (reply 8 0 1 [])) sent (fun t =>
      t.recordIs 0 (fun r => r.outq == [] && r.sendSeq == 1 && r.delivered == 1 && r.reasons == 0x20)) = true := by
  decide +kernel

theorem test_timeout_counts_miss :
    ran .replyTimeout polled (fun t =>
      decide (t.trunk.counters.timeout = 1 ∧ t.trunk.faultRun = 1
        ∧ t.recordIs 0 (fun r => r.missCount == some 1) = true)) = true := by decide +kernel

theorem test_third_miss_is_silent :
    ran .replyTimeout (onLine (withStation { station with missCount := some 2 }) .awaiting poll0) (fun t =>
      t.recordIs 0 (fun r => r.state == .silent && r.skip == some 7 && r.reasons == 2)) = true := by decide +kernel

theorem test_join_becomes_undecided_candidate :
    ran (.joinFrame (frameBytes 0 11 0 0 [4, 4])) invited (fun t =>
      decide (t.adm.candidates = [⟨0, [4, 4], .undecided, 0⟩] ∧ t.trunk.line = .guard)) = true := by decide +kernel

theorem test_join_window_expiry_lapses :
    ran .joinWindowExpiry (withCandidates invited [{ candidate with lapse := 15 }]) (fun t =>
      decide (t.adm.candidates = [])) = true := by decide

/-- A lowered limit: the heard candidate at the limit is removed (R132 step 2), and its JOIN judged anew; one below it
is heard (R133). -/
theorem test_heard_candidate_at_lowered_limit :
    ran (.joinFrame (frameBytes 0 11 0 0 [9])) (withCandidates invited [{ candidate with lapse := 16 }]) (fun t =>
      decide (t.adm.candidates = [⟨0, [9], .undecided, 0⟩])) = true
    ∧ ran (.joinFrame (frameBytes 0 11 0 0 [9]))
        (withCandidates invited [{ candidate with disposition := .undecided, lapse := 15 }]) (fun t =>
      decide (t.adm.candidates = [⟨7, [9], .undecided, 0⟩])) = true := by decide +kernel

/-- The station polled, with a reply in progress of which these bytes arrive before it is dropped. -/
def replying (bytes : List Byte) : State :=
  { polled with trunk := { polled.trunk with receiving := true, replyTimer := none, replyIn := [bytes] } }

/-- An abort in a DATA leaves the two payload bytes that had arrived (R70), and in a HOLD nothing (R161). -/
theorem test_abort_keeps_data_bytes :
    (replying [0x5A, 0xC3, 5, 0x90, 0, 3, 7, 8]).abortExchange.bufferBytes 9 3 = [7, 8, 0]
    ∧ (replying [0x5A, 0xC3, 5, 0xA0, 0, 2, 7, 8]).abortExchange.pool.mem = polled.pool.mem := by decide +kernel

theorem test_clock_loss_internal : ran (.clockLoss []) polled (fun t => decide (t = polled)) = true := by
  decide +kernel

/-- A state whose line clock comes from outside, with a reception in progress. -/
def clockedFromOutside (s : State) : State :=
  { s with trunk := { s.trunk with config := { s.trunk.config with clock := .external }, receiving := true } }

theorem test_clock_loss_truncates :
    ran (.clockLoss [0x5A, 0xC3, 5, 0x90, 0, 3, 7, 8]) (clockedFromOutside polled) (fun t =>
      decide (t.trunk.counters.format = 1 ∧ t.bufferBytes 9 3 = [7, 8, 0] ∧ t.pool.free.getLast? = some 9
        ∧ t.recordIs 0 (fun r => r.missCount == some 1) = true)) = true := by decide +kernel

theorem test_guard_expiry_fault :
    ran .guardExpiry { State.reset with trunk := { State.reset.trunk with line := .guard, faultDue := true } }
      (fun t => decide (t.trunk.line = .fault ∧ t.lineCause = true)) = true := by decide

/-- The bits of bytes in the order of the line, least significant first (R56). -/
def lineBits (bytes : List Byte) : List Bool := bytes.flatMap fun b => (List.range 8).map b.getLsbD

/-- A line state, with bits on trunk data in. -/
def hearing (line : LineState) (bits : List (List Bool)) : State :=
  { State.reset with trunk := { State.reset.trunk with line := line, lineIn := bits } }

theorem test_stray_frame_off :
    ran .strayFrame (hearing .off [lineBits startMark]) (fun t => decide (t = State.reset)) = true := by
  decide +kernel

/-- A start mark three bits off a byte counts at once; a start mark in the payload behind it does not (R67). -/
theorem test_stray_frame_counts_once :
    ran .strayFrame (hearing .fault [[false, true, false] ++ lineBits [0x5A, 0xC3, 5, 0x90, 0, 2, 0x5A, 0xC3, 1, 2]])
      (fun t => decide (t.trunk.counters.stray = 1 ∧ t.trunk.hunt = Hunt.start)) = true := by decide +kernel

theorem test_hold_expiry :
    ran (.holdExpiry 0) (withStation { station with hold := some 25 }) (fun t =>
      t.recordIs 0 (fun r => r.hold == none && r.reasons == 0x10)) = true := by decide +kernel

/-- An expiry behind a HOLD that restarted the time ends nothing (R123). -/
theorem test_hold_expiry_of_a_replaced_time :
    ran (.holdExpiry 0) (withStation { station with hold := some 1843200 }) (fun t =>
      t.recordIs 0 (fun r => r.hold == some 1843200 && r.reasons == 0)) = true := by decide +kernel

theorem test_idle_expiry_polls :
    ran .idleExpiry { oneStation with
      trunk := { oneStation.trunk with line := .idle }, poll := { oneStation.poll with idle := some 1 } } (fun t =>
        decide (t.trunk.line = .sending)) = true := by decide +kernel

theorem test_first_space_bit_stops_timer : ran .replyFirstSpaceBit polled (fun t =>
    decide (t.trunk.receiving = true ∧ t.trunk.replyTimer = none)) = true := by decide

/-! ### Witnesses: each meets the hypotheses of one statement, clause by clause -/

theorem witness_StepRunsFrontCommand :
    { State.reset with pending := [.frameSent, .guardExpiry] }.pending = .frameSent :: [.guardExpiry] := rfl

theorem witness_EmptyQueueStepIsOneClockPeriod : State.reset.pending = [] ∧ State.reset.resetIn = false := by decide

theorem witness_PinResetHoldsThePart :
    { State.reset with resetIn := true }.resetIn = true
      ∧ (∀ level, Instr.frameSent ≠ .pinReset level) ∧ ∀ ch, Instr.frameSent ≠ .windowDataRead ch :=
  ⟨rfl, fun _ h => (by cases h), fun _ h => (by cases h)⟩

/-- Channel 1 in a channel state, with a code. -/
def channel1 (st : ChanState) (code : Byte) : State :=
  { State.reset with port1 := { State.reset.port1 with state := st, code := code } }

/-- One clause of the wait for each channel state: PENDING with the command while Channel 0 is to be served, PENDING with
another, EXECUTING, and IDLE while Channel 0 is to be served. -/
theorem witness_CommandWaitsItsTurn :
    (Instr.allocate .ch1 0).issuer = some (.ch1, 0) ∧ (Instr.allocate .ch1 0).commandCode = some 0x60
      ∧ State.reset.resetIn = false
      ∧ ¬ State.Ready { channel1 .pending 0x60 with port0 := { State.reset.port0 with state := .pending } } .ch1 0x60
      ∧ ¬ (channel1 .pending 0x61).Ready .ch1 0x60
      ∧ ¬ (channel1 .executing 0x33).Ready .ch1 0x60
      ∧ ¬ State.Ready { channel1 .idle 0 with port0 := { State.reset.port0 with state := .pending } } .ch1 0x60 := by
  decide

theorem witness_CodeAndChannelChecks :
    codeAssigned 0x0F = false ∧ codeAssigned 0x80 = false ∧ State.reset.Ready .ch1 0x80
      ∧ (Instr.enrol .ch1 3).channel0Only = true ∧ (Instr.enrol .ch1 3).issuer = some (.ch1, 3)
      ∧ (Instr.enrol .ch1 3).commandCode = some 0x10 ∧ State.reset.Ready .ch1 0x10 := by decide

theorem witness_InterruptWordsAndOutputs : State.reset.resetIn = false := rfl

theorem witness_WindowAccepted :
    windowEnd.resetIn = false ∧ Memory.wf windowEnd.pool.mem = true ∧ windowEnd.Holds .ch0 windowEnd.port0.winBuf.toFin
      ∧ windowEnd.port0.winOff = 127 := by decide

theorem witness_WindowRefused :
    State.reset.resetIn = false ∧ ¬ State.reset.Holds .ch0 State.reset.port0.winBuf.toFin := by decide

theorem witness_RegisterWriteByOffset : State.reset.resetIn = false := rfl

theorem witness_Ready_channel0 :
    State.reset.Ready .ch0 0x10 ∧ State.reset.Ready .ch0 0x15 ∧ State.reset.Ready .ch0 0x32 ∧ State.reset.Ready .ch0 0x34
      ∧ State.reset.Ready .ch0 0x30 ∧ State.reset.Ready .ch0 0x54 ∧ State.reset.Ready .ch0 0x55 := by decide

/-- The state at the take of a command on Channel 0 with option 1 clear. -/
theorem witness_EnrolEffect :
    State.Ready (words (held State.reset .ch0 3) .ch0 [254, 0x0100, 16, 3]) .ch0 0x10 := by decide

theorem witness_RetireEffect :
    (words oneStation .ch1 [slot0]).Ready .ch1 0x11 := by decide

theorem witness_SuspendResumeEffect :
    (words oneStation .ch0 [slot0]).Ready .ch0 0x12 ∧ (words oneStation .ch0 [slot0]).Ready .ch0 0x13 := by decide

theorem witness_SetClassEffect : (words oneStation .ch0 [slot0, 1]).Ready .ch0 0x14 := by decide

theorem witness_TransferEffect : (words oneStation .ch0 [slot0, 1]).Ready .ch0 0x15 := by decide

/-- READ STATION and READ IDENTITY: slot byte 64 is refused, slot 63 is stale, the station's handle is good; buffer 32 is
refused, buffer 31 is in range, HELD or not. -/
theorem witness_ReadsOfARecord :
    (words oneStation .ch0 [64]).Ready .ch0 0x16
      ∧ ((words oneStation .ch0 [64]).served .ch0 0x16 0).named .ch0 false true = .error .badArgument
      ∧ ((words oneStation .ch0 [63]).served .ch0 0x16 0).named .ch0 false true = .error .staleHandle
      ∧ ((words oneStation .ch0 [slot0]).served .ch0 0x16 0).named .ch0 false true = .ok (0, station)
      ∧ station.ok = true
      ∧ (words oneStation .ch0 [slot0, 32]).Ready .ch0 0x17 ∧ Memory.wf oneStation.pool.mem = true
      ∧ ((words oneStation .ch0 [slot0, 32]).served .ch0 0x17 0).named .ch0 false false = .error .badArgument
      ∧ bufOf ((words oneStation .ch0 [slot0, 31]).arg .ch0 1) = some 31
      ∧ ¬ oneStation.Holds .ch0 31 ∧ (held oneStation .ch0 31).Holds .ch0 31 ∧ station.identity.length ≤ 16 := by
  refine ⟨by decide, rfl, rfl, rfl, ?_, by decide, rfl, rfl, rfl, ?_, ?_, ?_⟩ <;> decide +kernel

/-- FIND ADDRESS and FIND IDENTITY at the ends of their ranges: addresses 0, 255, 1, 254 and the station's; identity
lengths 0, 17 and 1, buffers 32 and 31; an identity that no record holds, and the station's. -/
theorem witness_FindResults :
    (words oneStation .ch0 [0]).Ready .ch0 0x18
      ∧ (words oneStation .ch0 [0]).arg .ch0 0 = 0 ∧ (words oneStation .ch0 [255]).arg .ch0 0 = 255
      ∧ oneStation.lookup 1 = none ∧ oneStation.lookup 254 = none
      ∧ oneStation.lookup 5 = some 0 ∧ oneStation.record 0 = some station
      ∧ (words oneStation .ch0 [0, 32]).Ready .ch0 0x19
      ∧ bufOf ((words oneStation .ch0 [1, 31]).arg .ch0 1) = some 31 ∧ ¬ oneStation.Holds .ch0 31
      ∧ (held oneStation .ch0 31).Holds .ch0 31
      ∧ (∀ i, (oneStation.recordIs i fun r => r.state.counts && r.identity == [0]) = false)
      ∧ (oneStation.recordIs 0 fun r => r.state.counts && r.identity == [1, 2]) = true := by
  refine ⟨by decide, rfl, rfl, rfl, rfl, rfl, rfl, by decide, rfl, ?_, ?_, ?_, ?_⟩ <;> decide +kernel

/-- NEXT STATION from slots 64, 63 and 0. -/
theorem witness_NextStationResult :
    (words oneStation .ch0 [64]).Ready .ch0 0x1A ∧ 63 < ((words oneStation .ch0 [64]).arg .ch0 0).toNat
      ∧ ((words oneStation .ch0 [63]).arg .ch0 0).toNat = 63
      ∧ (∀ i : SlotNo, 63 ≤ i.val → oneStation.record i = none)
      ∧ oneStation.record 0 = some station ∧ ∀ j : SlotNo, 0 ≤ j.val → j < 0 → oneStation.record j = none := by
  refine ⟨by decide, by decide, by decide, ?_, rfl, ?_⟩ <;> decide +kernel

/-- SET POLLING with KEEP, and without it at divisors 1, 17, 4 (its present value), 2 and 16. -/
theorem witness_SetPollingEffect :
    State.reset.Ready .ch0 0x20 ∧ (State.reset.served .ch0 0x20 1).option1 .ch0 = true
      ∧ (State.reset.served .ch0 0x20 2).option1 .ch0 = false
      ∧ ((words State.reset .ch0 [1]).arg .ch0 0).toNat = 1 ∧ ((words State.reset .ch0 [17]).arg .ch0 0).toNat = 17
      ∧ ((words State.reset .ch0 [4]).arg .ch0 0).toNat = State.reset.poll.slowDivisor
      ∧ ((words State.reset .ch0 [2]).arg .ch0 0).toNat = 2 ∧ ((words State.reset .ch0 [16]).arg .ch0 0).toNat = 16 := by
  decide

theorem witness_LineAndHealthSettings :
    (words State.reset .ch0 [2, 0, 1, 1, 8]).Ready .ch0 0x30 ∧ (words State.reset .ch0 [1, 0, 15, 255]).Ready .ch0 0x34 := by
  decide

theorem witness_ReadLineStatusEffect :
    (words State.reset .ch1 [1]).Ready .ch1 0x31 ∧ State.reset.trunk.faultRun ≤ 255 := by decide

theorem witness_ClearHoldEffect :
    (words (withStation { station with hold := some 1 }) .ch0 [slot0]).Ready .ch0 0x40 := by decide

theorem witness_StartLineEffect : oneStation.Ready .ch0 0x32 := by decide

theorem witness_StopLineEffect :
    (onLine oneStation .sending poll0).Ready .ch0 0x33
      ∧ { onLine oneStation .guard poll0 with trunk := { (onLine oneStation .guard poll0).trunk with
          drain := some ⟨.ch1, .awaiting⟩ } }.Ready .ch0 0x33 := by decide

/-- An abort of a POLL to a member, of a DATA to a RETIRING record, and of a POLL whose reply is arriving. -/
theorem witness_AbortReleasesTheExchange :
    polled.trunk.current = some poll0 ∧ poll0.target = some handle0 ∧ polled.record 0 = some station
      ∧ Memory.wf polled.pool.mem = true ∧ station.state ≠ .retiring
      ∧ (onLine (withStation { leaving false with outq := [8] }) .awaiting data0).record 0
          = some { leaving false with outq := [8] }
      ∧ (leaving false).state = .retiring ∧ data0.outbound = some 8
      ∧ ¬ (polled.trunk.receiving = true ∧ poll0.reserved ≠ none) ∧ poll0.reserved = some 9
      ∧ (replying [0x5A]).trunk.current = some poll0 ∧ (replying [0x5A]).record 0 = some station
      ∧ (replying [0x5A]).trunk.receiving = true ∧ Memory.wf (replying [0x5A]).pool.mem = true
      ∧ invited.trunk.current = some invite0 ∧ invite0.target = none := by
  refine ⟨rfl, rfl, rfl, rfl, by decide, rfl, rfl, rfl, by decide, rfl, rfl, rfl, rfl, rfl, rfl, rfl⟩

theorem witness_SetAdmissionEffect :
    (words State.reset .ch0 [255, 3, 1, 254, 254]).Ready .ch0 0x50 ∧ State.reset.adm.candidates.length ≤ 8
      ∧ State.reset.adm.nextPartition < 8 := by decide

/-- WRITE FILTER and READ FILTER: index 8 is refused, index 7 with length 16 and buffer 31, HELD or not, and length 0. -/
theorem witness_FilterCommands :
    (words State.reset .ch0 [8]).Ready .ch0 0x51 ∧ ((words State.reset .ch0 [8]).arg .ch0 0).toNat = 8
      ∧ (words State.reset .ch0 [7, 0x0101, 0x0101, 16, 0xFFFF, 31]).Ready .ch0 0x51
      ∧ (words State.reset .ch0 [7, 31]).Ready .ch0 0x52 ∧ Memory.wf State.reset.pool.mem = true
      ∧ State.reset.adm.filters[7].minLength = 0
      ∧ ((State.reset.setFilter 7 { Filter.atReset with minLength := 16 }).adm.filters[7]).minLength = 16
      ∧ ¬ State.reset.Holds .ch0 31 ∧ (held State.reset .ch0 31).Holds .ch0 31 := by decide

/-- READ CANDIDATE at positions 8, 7 of an empty list and 0 of a list of one. -/
theorem witness_ReadCandidateEffect :
    (words State.reset .ch0 [8, 31]).Ready .ch0 0x53 ∧ Memory.wf State.reset.pool.mem = true
      ∧ ((words State.reset .ch0 [8, 31]).arg .ch0 0).toNat = 8
      ∧ ¬ State.reset.Holds .ch0 31 ∧ (held State.reset .ch0 31).Holds .ch0 31
      ∧ State.reset.adm.candidates.length ≤ 7
      ∧ (withCandidates State.reset [candidate]).adm.candidates[0]? = some candidate
      ∧ candidate.identity.length ≤ 16 := by decide

theorem witness_CandidateDecisions :
    (words (withCandidates State.reset [candidate]) .ch0 [7, 0x0001, 254]).Ready .ch0 0x54
      ∧ (words (withCandidates State.reset [candidate]) .ch0 [7]).Ready .ch0 0x55 := by decide

theorem witness_BuffersHandedToTheHost :
    State.reset.Ready .ch1 0x60 ∧ delivered.Ready .ch1 0x63 ∧ State.reset.port0.deliveryQueue = []
      ∧ (delivered.port .ch1).deliveryQueue = 4 :: [] ∧ (delivered.buffer 4).place = .delivered handle0 5 := by decide

/-- RELEASE of buffer 32, and of buffer 31. -/
theorem witness_ReleaseEffect :
    (words State.reset .ch1 [32]).Ready .ch1 0x61 ∧ 31 < ((words State.reset .ch1 [32]).arg .ch1 0).toNat
      ∧ (31 : BufNo).val = ((words State.reset .ch1 [31]).arg .ch1 0).toNat := by decide

/-- SEND of length 121, which is refused, and of length 120 from buffer 31. -/
theorem witness_SendEffect :
    (words oneStation .ch0 [slot0, 31, 121]).Ready .ch0 0x62
      ∧ ((words oneStation .ch0 [slot0, 31, 121]).served .ch0 0x62 0).named .ch0 true false = .error .badArgument
      ∧ ((words oneStation .ch0 [slot0, 31, 120]).served .ch0 0x62 0).named .ch0 true true = .ok (0, station)
      ∧ bufOf ((words oneStation .ch0 [slot0, 31, 120]).arg .ch0 1) = some 31
      ∧ ((words oneStation .ch0 [slot0, 31, 120]).arg .ch0 2).toNat ≤ 120 :=
  ⟨by decide, rfl, rfl, rfl, by decide⟩

theorem witness_SetReserveEffect : (words State.reset .ch0 [8]).Ready .ch0 0x64 ∧ State.reset.BuffersOk :=
  ⟨by decide, by decide +kernel⟩

/-- TAKE CHANGE of an empty list, of a member's entry, and of a RETIRED record's. -/
theorem witness_TakeChangeEffect :
    State.reset.Ready .ch0 0x70 ∧ State.reset.port0.changeList = []
      ∧ { withStation { station with reasons := 1 } with
          port0 := { State.reset.port0 with changeList := [0] } }.port0.changeList = 0 :: []
      ∧ (withStation { station with reasons := 1 }).record 0 = some { station with reasons := 1 }
      ∧ station.delivered ≤ 255 ∧ station.undelivered ≤ 255 ∧ station.state ≠ .retired
      ∧ retired.port0.changeList = 0 :: [] ∧ retired.record 0 = some gone ∧ gone.state = .retired
      ∧ gone.delivered ≤ 255 ∧ gone.undelivered ≤ 255 :=
  ⟨by decide, rfl, rfl, rfl, by decide, by decide, by decide, rfl, rfl, rfl, by decide, by decide⟩

/-- A registry reset with no reception, and with a reply to a POLL arriving. -/
theorem witness_ResetRegistryEffect :
    oneStation.Ready .ch0 0x7F ∧ oneStation.trunk.receiving = false
      ∧ (clockedFromOutside polled).Ready .ch0 0x7F ∧ (clockedFromOutside polled).trunk.receiving = true
      ∧ (clockedFromOutside polled).trunk.current = some poll0 ∧ poll0.reserved = some 9
      ∧ Memory.wf (clockedFromOutside polled).pool.mem = true := by
  refine ⟨by decide, rfl, by decide, rfl, rfl, rfl, rfl⟩

/-- A POLL in SENDING, the same in AWAITING with its window open, and a DISMISS of a RETIRING record. -/
theorem witness_FramesSentAndReceptionsBegun :
    (onLine oneStation .sending poll0).resetIn = false
      ∧ (onLine oneStation .sending poll0).trunk.current = some poll0 ∧ poll0.kind ≠ .dismiss
      ∧ (onLine oneStation .sending poll0).trunk.line = .sending
      ∧ polled.trunk.line = .awaiting ∧ polled.windowOpen = true ∧ invited.windowOpen = true
      ∧ (onLine (withStation (leaving true)) .sending { invite0 with kind := .dismiss, target := some handle0 }).record 0
          = some (leaving true)
      ∧ (leaving true).state = .retiring :=
  ⟨rfl, rfl, by decide, rfl, rfl, rfl, rfl, rfl, rfl⟩

/-- A valid IDLE that acknowledges the message carried, and a LEAVE to a POLL. -/
theorem witness_ValidReplyFromMember :
    sent.resetIn = false ∧ sent.trunk.line = .awaiting ∧ sent.windowOpen = true ∧ sent.trunk.current = some data0
      ∧ (data0.kind = .poll ∨ data0.kind = .data) ∧ data0.target = some handle0 ∧ sent.record 0 = some sender
      ∧ sender.state.isMember = true
      ∧ judge data0.kind sent.expectedAddress (receive (reply 8 0 1 []) false) = .valid ⟨.idle, 0, 1⟩
      ∧ Memory.wf sent.pool.mem = true ∧ sender.outq.Nodup ∧ (∀ b, data0.outbound = some b → b ∈ sender.outq)
      ∧ judge poll0.kind polled.expectedAddress (receive (reply 12 0 0 []) false) = .valid ⟨.leave, 0, 0⟩ := by
  refine ⟨rfl, rfl, rfl, rfl, .inr rfl, rfl, rfl, rfl, ?_, rfl, ?_, ?_, ?_⟩ <;> decide +kernel

/-- A timeout, and a reply whose check fails, on a POLL; a reply too short for its opening. -/
theorem witness_MissByMember :
    polled.resetIn = false ∧ polled.trunk.line = .awaiting ∧ polled.trunk.current = some poll0
      ∧ (poll0.kind = .poll ∨ poll0.kind = .data) ∧ poll0.target = some handle0 ∧ polled.record 0 = some station
      ∧ station.state.isMember = true ∧ Memory.wf polled.pool.mem = true ∧ station.outq.Nodup
      ∧ (∀ b, poll0.outbound = some b → b ∈ station.outq) ∧ polled.trunk.receiving = false
      ∧ polled.windowOpen = true
      ∧ judge poll0.kind polled.expectedAddress (receive [0x5A, 0xC3, 5, 0x80, 0, 0, 0, 0] false) = .invalid .check
      ∧ judge poll0.kind polled.expectedAddress (receive [0x5A] false) = .invalid .opening := by
  refine ⟨rfl, rfl, rfl, .inl rfl, rfl, rfl, rfl, rfl, ?_, ?_, rfl, rfl, ?_, ?_⟩ <;> decide +kernel

theorem witness_AdmitOutcome :
    asked.resetIn = false ∧ asked.trunk.line = .awaiting
      ∧ asked.trunk.current = some { invite0 with kind := .admitExchange, target := some handle0 }
      ∧ asked.record 0 = some admitting ∧ admitting.state = .admitting ∧ asked.windowOpen = true
      ∧ judge .admitExchange asked.expectedAddress (receive (reply 8 0 0 []) false) = .valid ⟨.idle, 0, 0⟩
      ∧ judge .admitExchange asked.expectedAddress (receive (reply 12 0 0 []) false) = .invalid .unexpected
      ∧ asked.trunk.receiving = false := by
  refine ⟨rfl, rfl, rfl, rfl, rfl, rfl, ?_, ?_, rfl⟩ <;> decide +kernel

/-- The DATA and the ADMIT of a RETIRING record, their replies awaited: a timeout, and a DATA out of sequence. -/
theorem witness_RetiringTargetOutcome :
    let s := onLine (withStation { leaving false with outq := [8] }) .awaiting data0
    let admit0 : Exchange := { invite0 with kind := .admitExchange, target := some handle0 }
    (s.resetIn = false ∧ s.trunk.line = .awaiting ∧ s.trunk.current = some data0 ∧ data0.target = some handle0
      ∧ s.record 0 = some { leaving false with outq := [8] } ∧ (leaving false).state = .retiring
      ∧ Memory.wf s.pool.mem = true ∧ data0.kind = .data ∧ [8] = data0.outbound.toList
      ∧ s.trunk.receiving = false ∧ s.windowOpen = true
      ∧ judge .data s.expectedAddress (receive (reply 9 3 0 [1]) false) = .valid ⟨.data 1, 3, 0⟩)
    ∧ (onLine (withStation (leaving false)) .awaiting admit0).record 0 = some (leaving false)
    ∧ admit0.kind = .admitExchange ∧ admit0.reserved = none ∧ admit0.outbound = none := by
  refine ⟨⟨rfl, rfl, rfl, rfl, rfl, rfl, rfl, rfl, rfl, rfl, rfl, ?_⟩, rfl, rfl, rfl, rfl⟩
  decide +kernel

theorem witness_JoinWindowOutcomes :
    invited.resetIn = false ∧ invited.trunk.line = .awaiting ∧ invited.trunk.current = some invite0
      ∧ invite0.kind = .invite ∧ invited.windowOpen = true ∧ invited.trunk.receiving = false
      ∧ judge .invite (fun a => decide (a = 0)) (receive (frameBytes 0 11 0 0 [4]) false) = .valid ⟨.join [4], 0, 0⟩
      ∧ judge .invite (fun a => decide (a = 0)) (receive [0] false) = .invalid .opening
      ∧ { invited with trunk := { invited.trunk with receiving := true } }.trunk.receiving = true := by
  refine ⟨rfl, rfl, rfl, rfl, rfl, rfl, ?_, ?_, rfl⟩ <;> decide +kernel

/-- A JOIN of a candidate; of a member, with no candidate; of neither, with a filter that matches, and with none; and the
longest minimum length. -/
theorem witness_JoinEvaluationCases :
    ((withCandidates State.reset [candidate]).adm.candidates.find? fun c => decide (c.identity = [9])) = some candidate
      ∧ (∀ c ∈ oneStation.adm.candidates, c.identity ≠ [1, 2]) ∧ oneStation.findIdentity [1, 2] = some 0
      ∧ oneStation.record 0 = some station ∧ State.reset.findIdentity [1] = none
      ∧ (State.reset.setFilter 0 { Filter.atReset with enabled := true }).adm.filters[0].enabled = true
      ∧ ((State.reset.setFilter 0 { Filter.atReset with enabled := true }).adm.filters[0].matchesId [1]) = true
      ∧ (∀ n : Fin 8, ¬ (State.reset.adm.filters[n].enabled = true ∧ State.reset.adm.filters[n].matchesId [1] = true))
      ∧ { Filter.atReset with minLength := 16 }.minLength ≤ 16 := by
  refine ⟨rfl, ?_, ?_, rfl, ?_, ?_, ?_, ?_, ?_⟩ <;> decide +kernel

theorem witness_NewCandidateTicket :
    (withCandidates State.reset (List.replicate 7 candidate)).adm.candidates.length < 8
      ∧ 8 ≤ (withCandidates State.reset (List.replicate 8 candidate)).adm.candidates.length := by decide

/-- The allocator on the whole range with every address free, and on a range of the one address that is held. -/
theorem witness_AllocatorGivesLowestAddress :
    State.reset.adm.upper ≤ 254
      ∧ (State.reset.adm.lower ≤ 1 ∧ 1 ≤ State.reset.adm.upper ∧ State.reset.lookup (BitVec.ofNat 8 1) = none)
      ∧ (∀ b : Nat, b < 1 → ¬ State.reset.adm.lower ≤ b)
      ∧ (oneStation.updAdm fun a => { a with lower := 5, upper := 5 }).lookup (BitVec.ofNat 8 5) ≠ none := by
  refine ⟨by decide, by decide, ?_, by decide⟩
  intro b hb; simp [State.reset]; omega

theorem witness_AdmissionAttemptAndRetries :
    (withCandidates State.reset [{ candidate with disposition := .undecided }, candidate]).adm.candidates
        = [{ candidate with disposition := .undecided }] ++ candidate :: []
      ∧ candidate.disposition = .deferred .fast .ch1
      ∧ (∀ c ∈ [{ candidate with disposition := .undecided }], c.disposition = .undecided)
      ∧ (State.attempt (withCandidates State.reset [candidate]) [9] .fast .ch1).isSome = true
      ∧ State.attempt (State.reset.updAdm fun a => { a with lower := 2, upper := 1 }) [9] .fast .ch1 = none
      ∧ (∀ c ∈ withCandidates State.reset [] |>.adm.candidates, c.disposition = .undecided) := by
  refine ⟨rfl, rfl, ?_, ?_, ?_, ?_⟩ <;> decide +kernel

/-- CLOCK_LOSS with the INTERNAL source; with the EXTERNAL one in FAULT, in SENDING with each kind, and in AWAITING with a
reply, or a frame in the join window, that had not ended, and with one that had. -/
theorem witness_ClockLossEffect :
    polled.resetIn = false ∧ polled.trunk.config.clock ≠ .external ∧ State.reset.trunk.line = .off
      ∧ (∀ line x, (clockedFromOutside (onLine oneStation line x)).trunk.config.clock = .external
        ∧ (clockedFromOutside (onLine oneStation line x)).resetIn = false
        ∧ (clockedFromOutside (onLine oneStation line x)).trunk.line = line
        ∧ (clockedFromOutside (onLine oneStation line x)).trunk.receiving = true
        ∧ (clockedFromOutside (onLine oneStation line x)).trunk.current = some x
        ∧ Memory.wf (clockedFromOutside (onLine oneStation line x)).pool.mem = true)
      ∧ poll0.kind = .poll ∧ poll0.target.isSome = true ∧ invite0.kind = .invite
      ∧ [(0x5A : Byte)].length < 2
      ∧ ([0x5A, 0xC3, 5, 0x90, 0, 120] : List Byte).take 2 = [0x5A, 0xC3]
      ∧ (([0x5A, 0xC3, 5, 0x90, 0, 120] : List Byte).getD 5 0).toNat = 120
      ∧ ([0x5A, 0xC3, 5, 0x90, 0, 120] : List Byte).length < 8 + 120
      ∧ ¬ (([0x5A, 0xC3, 5, 0x90, 0, 121] : List Byte).getD 5 0).toNat ≤ 120 := by
  refine ⟨rfl, by decide, rfl, fun _ _ => ⟨rfl, rfl, rfl, rfl, rfl, rfl⟩, rfl, rfl, rfl, by decide, rfl, rfl, by decide,
    by decide⟩

/-- Bits on the line in FAULT and none; a hold in its last period and one that is not, and an idle in progress. -/
theorem witness_StrayHoldAndIdleEvents :
    oneStation.resetIn = false
      ∧ (hearing .fault [lineBits startMark]).resetIn = false
      ∧ (hearing .fault [lineBits startMark]).trunk.lineIn = lineBits startMark :: []
      ∧ oneStation.trunk.lineIn = []
      ∧ (withStation { station with hold := some 25 }).record 0 = some { station with hold := some 25 }
      ∧ (withStation { station with hold := some 26 }).record 0 = some { station with hold := some 26 }
      ∧ { oneStation with poll := { oneStation.poll with idle := some 0 } }.poll.idle.isSome = true :=
  ⟨rfl, rfl, rfl, rfl, rfl, rfl, rfl⟩

theorem witness_GuardStartsAndRunsOut :
    (onLine oneStation .guard poll0.released).resetIn = false
      ∧ (onLine oneStation .guard poll0.released).trunk.line = .guard := ⟨rfl, rfl⟩

theorem witness_PostingAReason :
    retired.record 0 = some gone ∧ gone.state = .retired ∧ oneStation.record 0 = some station
      ∧ station.state ≠ .retired := ⟨rfl, rfl, rfl, by decide⟩

theorem witness_RetirementEntered :
    (withStation sender).record 0 = some sender ∧ sender.state ≠ .retiring ∧ sender.state ≠ .retired
      ∧ sender.outq.Nodup ∧ (withStation (leaving false)).record 0 = some (leaving false)
      ∧ (leaving false).state ≠ .retired := ⟨rfl, by decide, by decide, by decide, rfl, by decide⟩

/-- One clause of the choice each: a dismissal, an admission, an invitation, a waiting Ring, a passed pass, a member. -/
theorem witness_ChoiceOfTheNextExchange :
    ((withStation (leaving true)).joinDismiss 0).registry.dismissQueue = 0 :: []
      ∧ (withStation (leaving true)).record 0 = some (leaving true)
      ∧ ((created admitting).joinAdmit 0).registry.admitQueue = 0 :: []
      ∧ (created admitting).record 0 = some admitting
      ∧ (State.reset.updPoll fun p => { p with invitePending := true }).poll.invitePending = true
      ∧ ¬ 8 ≤ State.reset.adm.candidates.length
      ∧ State.reset.requestMember.2 = .idle
      ∧ (State.reset.updPoll fun p => { p with pollIssued := true }).requestMember.2 = .passEnded
      ∧ oneStation.requestMember.2 = .slot 0
      ∧ (oneStation.requestMember.1.record 0).isSome = true := by
  refine ⟨rfl, rfl, rfl, rfl, rfl, by decide, ?_, ?_, ?_, ?_⟩ <;> decide +kernel

/-- A request in an idle, at the Ring's end, and with a member at the cursor, due or passed over; a pass end with interval 0
and with interval 1. -/
theorem witness_RequestsAndPassEnds :
    (State.reset.updPoll fun p => { p with idle := some 1 }).poll.idle.isSome = true
      ∧ State.reset.poll.idle = none ∧ State.reset.poll.ring.length ≤ State.reset.poll.cursor
      ∧ oneStation.poll.ring[oneStation.poll.cursor]? = some 0 ∧ (oneStation.visit 0).2 = true
      ∧ ((withStation { station with skip := some 1 }).visit 0).2 = false
      ∧ State.reset.adm.interval = 0 ∧ State.reset.poll.countdown = 0
      ∧ 1 ≤ (State.reset.updPoll fun p => { p with countdown := 1 }).poll.countdown :=
  ⟨rfl, rfl, by decide, rfl, rfl, rfl, rfl, rfl, by decide⟩

theorem witness_VisitOfAMember :
    oneStation.record 0 = some station ∧ station.state = .active ∧ station.cls = .slow ∧ station.skip = some 0
      ∧ { station with cls := .fast }.cls = .fast ∧ { station with skip := some 1 }.skip = some (0 + 1)
      ∧ { station with state := .suspended }.state = .suspended
      ∧ { station with state := .silent, skip := some 7 }.skip = some (6 + 1) :=
  ⟨rfl, rfl, rfl, rfl, rfl, rfl, rfl, rfl⟩

theorem witness_FrameRoundTrip : (List.replicate 120 (0xFF : Byte)).length ≤ 120 := by decide

/-- A frame that fails its check, one of a kind code without meaning, one from another address, one of a kind the exchange
does not allow, and one that passes all. -/
theorem witness_VerdictOrder :
    ¬ checkPasses [0x5A, 0xC3, 5, 0x80, 0, 0, 0, 0] = true
      ∧ checkPasses (reply 8 0 0 []) = true
      ∧ ¬ formatPasses (frameKind (reply 7 0 0 [])) 0 = true ∧ formatPasses (frameKind (reply 8 0 0 [])) 0 = true
      ∧ ¬ (fun a : Byte => decide (a = 6)) (frameByte (reply 8 0 0 []) 2) = true
      ∧ (∀ k, replyOf (reply 11 0 0 [1]) = some k → allows .poll k = false)
      ∧ replyOf (reply 8 0 0 []) = some .idle ∧ allows .poll .idle = true := by
  refine ⟨?_, ?_, ?_, ?_, ?_, ?_, rfl, rfl⟩
  · decide +kernel
  · decide +kernel
  · decide +kernel
  · decide +kernel
  · decide +kernel
  · intro k h; cases h; rfl

/-- A sound state with a station, and a step from it. -/
theorem witness_Sound : State.Sound { oneStation with pending := [.startLine .ch0 0] } := by
  refine ⟨?_, ?_, ?_, ?_, ?_, ?_, ?_⟩ <;> decide +kernel

theorem witness_StepKeeps :
    (match step { oneStation with pending := [.startLine .ch0 0] } with
      | .next t => decide (t.trunk.line = .sending)
      | .fault f => nomatch f
      | .refused _ => false) = true := by decide +kernel

theorem witness_HandleNamesOneRecord :
    ∀ level rest, { oneStation with pending := [.startLine .ch0 0] }.pending ≠ .pinReset level :: rest := by
  intro level rest h; cases h

end Sys2Proof.Tests
end

section
/-! The reads of the Station Registry: what NEXT STATION, READ STATION and READ IDENTITY answer (R32, R33, R36). -/

namespace Sys2Proof.Machine

/-! ### Searching the Station Table -/

/-- A search of the slots in order finds the lowest slot that passes the test. -/
theorem allSlots_find?_eq_some {p : SlotNo → Bool} {i : SlotNo} :
    allSlots.find? p = some i ↔ p i = true ∧ ∀ j < i, p j = false := by
  rw [allSlots, ← Fin.find?_eq_find?_finRange, Fin.find?_eq_some_iff]

theorem allSlots_find?_eq_none {p : SlotNo → Bool} : allSlots.find? p = none ↔ ∀ i, p i = false := by
  rw [allSlots, ← Fin.find?_eq_find?_finRange, Fin.find?_eq_none_iff]

theorem State.nextStation_eq_none (s : State) {start : Nat} (h : ∀ i : SlotNo, start ≤ i.val → s.record i = none) :
    s.nextStation start = none := by
  refine allSlots_find?_eq_none.2 fun i => ?_
  by_cases hi : start ≤ i.val
  · simp [h i hi]
  · simp [hi]

theorem State.nextStation_eq_some (s : State) {start : Nat} {i : SlotNo} {r : Record} (hi : start ≤ i.val)
    (hr : s.record i = some r) (h : ∀ j : SlotNo, start ≤ j.val → j < i → s.record j = none) :
    s.nextStation start = some i := by
  refine allSlots_find?_eq_some.2 ⟨by simp [hi, hr], fun j hj => ?_⟩
  by_cases hs : start ≤ j.val
  · simp [h j hs hj]
  · simp [hs]

/-- The handle and state of a slot that is not FREE, as results. -/
theorem State.foundWords_of_record (s : State) {i : SlotNo} {r : Record} (h : s.record i = some r) :
    s.foundWords i = [(s.slot i).gen ++ BitVec.ofNat 8 i.val, BitVec.ofNat 16 r.state.code] := by
  simp only [State.foundWords, State.stateCode, h]
  rfl

@[simp] theorem State.served_nextStation (s : State) (ch : Channel) (code opts : Byte) (start : Nat) :
    (s.served ch code opts).nextStation start = s.nextStation start := by
  simp [State.nextStation]

@[simp] theorem State.served_foundWords (s : State) (ch : Channel) (code opts : Byte) (i : SlotNo) :
    (s.served ch code opts).foundWords i = s.foundWords i := by
  simp [State.foundWords, State.stateCode]

/-! ### NEXT STATION -/

/-- NEXT STATION by its start slot and the search from there (R36). -/
theorem exec_nextStation_ready {ch : Channel} {s : State} (h : s.Ready ch 0x1A) (opts : Byte) :
    exec (.nextStation ch opts) s = .next
      (if (s.arg ch 0).toNat ≤ 63 then
        match s.nextStation (s.arg ch 0).toNat with
        | some i => (s.served ch 0x1A opts).answer ch .ok (s.foundWords i)
        | none => (s.served ch 0x1A opts).answer ch .notFound []
      else (s.served ch 0x1A opts).answer ch .badArgument []) := by
  refine (command_ready h bodyNextStation opts).trans ?_
  by_cases hw : (s.arg ch 0).toNat ≤ 63
  · cases hn : s.nextStation (s.arg ch 0).toNat <;> simp [bodyNextStation, inRange, hw, hn]
  · simp [bodyNextStation, inRange, hw]

/-- Settles O18: the search over the slots from the start slot up, by whether it finds one. -/
theorem nextStationResult : Obligations.NextStationResult := by
  unfold Obligations.NextStationResult
  intro ch opts s ready
  refine ⟨fun hstart => ?_, fun hstart hfree => ?_, fun i r hi hr hfree => ?_⟩ <;>
    rw [exec_nextStation_ready ready]
  · rw [if_neg (by omega)]
  · rw [if_pos hstart, s.nextStation_eq_none hfree]
  · have hlt := i.isLt
    rw [if_pos (by omega), s.nextStation_eq_some hi hr hfree, ← s.foundWords_of_record hr]

/-! ### The fields of a record as result words -/

/-- A field that fits its width lies in the word as the number itself (R199). -/
theorem bitsAt_of_lt {v width : Nat} (pos : Nat) (h : v < 2 ^ width) : bitsAt v width pos = v * 2 ^ pos := by
  rw [bitsAt, Nat.mod_eq_of_lt h]

theorem RecState.code_lt (x : RecState) : x.code < 2 ^ 3 := by cases x <;> decide

theorem causeCode_lt (x : Option RetireCause) : causeCode x < 2 ^ 3 := by
  rcases x with _ | x
  · decide
  · cases x <;> decide

theorem Class.code_lt (x : Class) : x.code < 2 ^ 1 := by cases x <;> decide

theorem channelCode_lt (x : Channel) : channelCode x < 2 ^ 1 := by cases x <;> decide

theorem yesNo_lt (b : Bool) : yesNo b < 2 ^ 1 := by cases b <;> decide

/-- The quanta of a hold, rounded up; an absent hold reads as no time does, 0 (R114). -/
theorem holdReading_eq (t : Option Nat) : holdReading t = (t.getD 0 + 1843199) / 1843200 := by
  cases t with
  | none => rfl
  | some n => exact congrArg (· / 1843200) (Nat.add_sub_assoc (by decide : 1 ≤ 1843200) n)

theorem yesNo_dismissPending (d : Option Bool) : yesNo (d.getD false) = if d = some true then 1 else 0 := by
  rcases d with _ | _ | _ <;> rfl

theorem getD_le_of_presentIn {low high : Nat} {n : Option Nat} (h : presentIn low n high = true) :
    n.getD 0 ≤ high := by
  cases n with
  | none => simp
  | some k => simp_all [presentIn, within]

theorem getD_le_of_isNone {n : Option Nat} (high : Nat) (h : n.isNone = true) : n.getD 0 ≤ high := by
  simp_all

/-- The largest values of the fields that some record states lack, an absent one read as 0 (R2). -/
theorem Record.counts_le_of_fieldsOk {r : Record} (h : r.fieldsOk = true) :
    r.skip.getD 0 ≤ 15 ∧ r.missCount.getD 0 ≤ 15 ∧ r.failedProbes.getD 0 ≤ 255 ∧ r.admitAttempts.getD 0 ≤ 2 := by
  unfold Record.fieldsOk at h
  cases hs : r.state <;> simp only [hs, Bool.and_eq_true, and_assoc] at h
  case admitting =>
    obtain ⟨skip, miss, probes, -, attempts, -⟩ := h
    exact ⟨getD_le_of_isNone _ skip, getD_le_of_isNone _ miss, getD_le_of_isNone _ probes,
      getD_le_of_presentIn attempts⟩
  case active | suspended =>
    obtain ⟨skip, miss, probes, attempts, -⟩ := h
    exact ⟨getD_le_of_presentIn skip, getD_le_of_presentIn miss, getD_le_of_isNone _ probes,
      getD_le_of_isNone _ attempts⟩
  case silent =>
    obtain ⟨skip, miss, probes, attempts, -⟩ := h
    exact ⟨getD_le_of_presentIn skip, getD_le_of_presentIn miss, getD_le_of_presentIn probes,
      getD_le_of_isNone _ attempts⟩
  case retiring | retired =>
    obtain ⟨skip, miss, probes, -, attempts, -⟩ := h
    exact ⟨getD_le_of_isNone _ skip, getD_le_of_isNone _ miss, getD_le_of_isNone _ probes,
      getD_le_of_isNone _ attempts⟩

/-- The head attempts of a record, absent with an empty outbound queue (R2). -/
theorem Record.headAttempts_le {r : Record}
    (h : (if r.outq.isEmpty then r.headAttempts.isNone else presentIn 0 r.headAttempts 15) = true) :
    r.headAttempts.getD 0 ≤ 15 := by
  split at h
  · exact getD_le_of_isNone _ h
  · exact getD_le_of_presentIn h

/-- A hold of at most 4095 quanta reads as at most 4095 (R114). -/
theorem holdReading_le {t : Option Nat} (h : t.all (fun n => within 1 n (4095 * Config.quantum)) = true) :
    holdReading t ≤ 4095 := by
  cases t with
  | none => simp [holdReading]
  | some n =>
    simp only [Option.all_some, within, decide_eq_true_eq] at h
    simp only [Config.quantum] at h
    rw [holdReading_eq, Option.getD_some]
    omega

/-- READ STATION's words for a record as R2 allows it: every field fits the width that R199 gives it. -/
theorem stationWords_of_ok {r : Record} (h : r.ok = true) : stationWords r =
    [BitVec.ofNat 16 (r.address.toNat + 256 * r.state.code + 2048 * causeCode r.retireCause
        + 16384 * r.cls.code + 32768 * channelCode r.owner),
     BitVec.ofNat 16 ((r.hold.getD 0 + 1843199) / 1843200 + 4096 * r.outq.length
        + 32768 * if r.dismissPending = some true then 1 else 0),
     BitVec.ofNat 16 (r.headAttempts.getD 0 + 16 * r.skip.getD 0 + 256 * r.missCount.getD 0
        + 4096 * r.admitAttempts.getD 0),
     BitVec.ofNat 16 (r.failedProbes.getD 0 + 256 * r.sendSeq.toNat + 4096 * r.recvSeq.toNat),
     BitVec.ofNat 16 r.replies,
     BitVec.ofNat 16 r.retransmissions] := by
  simp only [Record.ok, Bool.and_eq_true, and_assoc] at h
  obtain ⟨-, -, outq, head, hold, -, -, -, -, fields⟩ := h
  simp only [within, decide_eq_true_eq] at outq
  have head := Record.headAttempts_le head
  have hold := holdReading_le hold
  obtain ⟨skip, miss, probes, attempts⟩ := Record.counts_le_of_fieldsOk fields
  rw [stationWords, bitsAt_of_lt 0 r.address.isLt, bitsAt_of_lt 8 r.state.code_lt,
    bitsAt_of_lt 11 (causeCode_lt _), bitsAt_of_lt 14 r.cls.code_lt, bitsAt_of_lt 15 (channelCode_lt _),
    bitsAt_of_lt 0 (by omega : holdReading r.hold < 2 ^ 12), bitsAt_of_lt 12 (by omega : r.outq.length < 2 ^ 3),
    bitsAt_of_lt 15 (yesNo_lt _), bitsAt_of_lt 0 (by omega : r.headAttempts.getD 0 < 2 ^ 4),
    bitsAt_of_lt 4 (by omega : r.skip.getD 0 < 2 ^ 4), bitsAt_of_lt 8 (by omega : r.missCount.getD 0 < 2 ^ 4),
    bitsAt_of_lt 12 (by omega : r.admitAttempts.getD 0 < 2 ^ 2),
    bitsAt_of_lt 0 (by omega : r.failedProbes.getD 0 < 2 ^ 8), bitsAt_of_lt 8 r.sendSeq.isLt,
    bitsAt_of_lt 12 r.recvSeq.isLt, holdReading_eq, yesNo_dismissPending]
  simp only [wordOf, Nat.mul_comm, Nat.reducePow, Nat.one_mul]

/-! ### READ STATION -/

/-- READ STATION answers the refusal of its record check, or the words of the record (R32). -/
theorem exec_readStation_ready {ch : Channel} {s : State} (h : s.Ready ch 0x16) (opts : Byte) :
    exec (.readStation ch opts) s = .next
      (match (s.served ch 0x16 opts).named ch false true with
        | .error code => (s.served ch 0x16 opts).answer ch code []
        | .ok (_, r) => (s.served ch 0x16 opts).answer ch .ok (stationWords r)) := by
  refine (command_ready h bodyReadStation opts).trans (congrArg _ ((withRecord_named ..).trans ?_))
  cases (s.served ch 0x16 opts).named ch false true with
  | error code => rfl
  | ok ir => exact State.complete_ok ..

/-! ### READ IDENTITY -/

theorem bufOf_isSome (w : Word) : (bufOf w).isSome = decide (w.toNat < 32) := by
  unfold bufOf
  split <;> simp [*]

/-- READ IDENTITY answers the refusal of its argument and record checks; then, by who holds the buffer, it refuses or
stages the identity out (R33, R173). -/
theorem exec_readIdentity_ready {ch : Channel} {s : State} (h : s.Ready ch 0x17) (opts : Byte) :
    exec (.readIdentity ch opts) s = .next
      (match (s.served ch 0x17 opts).named ch false (bufOf (s.arg ch 1)).isSome, bufOf (s.arg ch 1) with
        | .error code, _ => (s.served ch 0x17 opts).answer ch code []
        | .ok _, none => (s.served ch 0x17 opts).answer ch .badArgument []
        | .ok (_, r), some b =>
          if s.isHeld ch b then
            ((s.served ch 0x17 opts).stageOut b r.identity).answer ch .ok [BitVec.ofNat 16 r.identity.length]
          else (s.served ch 0x17 opts).answer ch .notHeld []) := by
  refine (command_ready h bodyReadIdentity opts).trans (congrArg _ ?_)
  rw [bodyReadIdentity, withRecord_named, State.served_arg]
  cases (s.served ch 0x17 opts).named ch false (bufOf (s.arg ch 1)).isSome with
  | error code => rfl
  | ok ir => cases bufOf (s.arg ch 1) <;> simp [wordOf]

/-- Staging out writes the buffer's bytes and its length, and nothing else. -/
theorem State.stageOut_eq (s : State) (b : BufNo) (item : List Byte) : s.stageOut b item =
    { s with pool := { s.pool with
        mem := (s.writeBuffer b item).pool.mem
        buffers := s.pool.buffers.set b { s.buffer b with length := item.length } } } := rfl

@[simp] theorem State.answer_pool (s : State) (ch : Channel) (code : ResultCode) (ws : List Word) :
    (s.answer ch code ws).pool = s.pool := by
  simp [State.answer]

/-- Settles O16: READ STATION by the widths of a record's fields, the codings constructor by constructor, and READ
IDENTITY by what staging out writes. -/
theorem readsOfARecord : Obligations.ReadsOfARecord := by
  unfold Obligations.ReadsOfARecord
  refine ⟨fun ch opts s ready => ⟨fun code hcode => ?_, fun i r hr hok => ?_⟩, fun x => ?_, fun x => ?_, fun x => ?_,
    fun x => ?_, fun ch opts s ready hwf => ⟨fun code hcode => ?_, fun i r b hr hb => ?_⟩⟩
  · rw [exec_readStation_ready ready, hcode]
  · rw [exec_readStation_ready ready, hr, ← stationWords_of_ok hok]
  · cases x <;> rfl
  · rcases x with _ | x
    · rfl
    · cases x <;> rfl
  · cases x <;> rfl
  · cases x <;> rfl
  · rw [← bufOf_isSome] at hcode
    rw [exec_readIdentity_ready ready, hcode]
  · rw [exec_readIdentity_ready ready, hb, Option.isSome_some, hr]
    refine ⟨fun hheld => ?_, fun hheld hlen => ?_⟩
    · simp [s.isHeld_iff, hheld]
    · refine ⟨_, congrArg _ (if_pos ((s.isHeld_iff ch b).2 hheld)), ?_, ?_⟩
      · simp only [State.answer_pool, State.stageOut_eq]
        rw [← s.served_pool ch 0x17 opts] at hwf ⊢
        exact State.wrote_writeBuffer hwf b (by omega)
      · simp only [State.answer_pool, State.stageOut_eq, State.served_pool, State.served_buffer]

end Sys2Proof.Machine
end

section
/-! READ LINE STATUS: its status word, its page of counters, and CLEAR (R77). -/

namespace Sys2Proof.Machine

/-! ### The status word -/

theorem LineState.code_lt (x : LineState) : x.code < 2 ^ 8 := by cases x <;> decide

/-- Two fields that fit a byte each make a word without loss (R199). -/
theorem wordOf2_of_lt {first second : Nat} (hf : first < 2 ^ 8) (hs : second < 2 ^ 8) :
    wordOf2 first second = BitVec.ofNat 16 (first + 256 * second) := by
  rw [wordOf2, bitsAt_of_lt 0 hf, bitsAt_of_lt 8 hs, wordOf]
  congr 1
  omega

/-! ### READ LINE STATUS -/

/-- READ LINE STATUS by its checks in order: CLEAR from Channel 1, then the page. The words of a page are those of the
counters at the take, which CLEAR then sets to 0 (R77, R193). -/
theorem exec_readLineStatus_ready {ch : Channel} {s : State} (h : s.Ready ch 0x31) (opts : Byte) :
    exec (.readLineStatus ch opts) s = .next
      (let s0 := s.served ch 0x31 opts
      let page := (s.arg ch 0).toNat
      if ch = .ch1 ∧ s0.option2 ch = true then s0.answer ch .notPermitted []
      else if 1 < page then s0.answer ch .badArgument []
      else
        State.answer (if s0.option2 ch = true then s0.updCounters fun c => c.clearPage page else s0) ch .ok
          (wordOf2 s.trunk.line.code s.trunk.faultRun :: pageWords s.trunk.counters page)) := by
  refine (command_ready h bodyReadLineStatus opts).trans ?_
  simp [bodyReadLineStatus]

/-- The counters of page 0 set to 0, at the take of a command. -/
theorem served_clearPage_zero (s : State) (ch : Channel) (code opts : Byte) :
    ((s.served ch code opts).updCounters fun c => c.clearPage 0) =
      { s.served ch code opts with trunk := { s.trunk with
          counters := { s.trunk.counters with check := 0, format := 0, stray := 0, unexpected := 0 } } } := by
  simp [State.updCounters, Counters.clearPage]

/-- The counters of the other page set to 0, at the take of a command. -/
theorem served_clearPage_of_ne_zero (s : State) (ch : Channel) (code opts : Byte) {page : Nat} (h : page ≠ 0) :
    ((s.served ch code opts).updCounters fun c => c.clearPage page) =
      { s.served ch code opts with trunk := { s.trunk with
          counters := { s.trunk.counters with
            timeout := 0, joinCollision := 0, refusedJoin := 0, candidateOverflow := 0 } } } := by
  simp [State.updCounters, Counters.clearPage, h]

/-- Settles O21: the line states constructor by constructor, and the command by its checks and then by its page. -/
theorem readLineStatusEffect : Obligations.ReadLineStatusEffect := by
  unfold Obligations.ReadLineStatusEffect
  refine ⟨fun x => by cases x <;> rfl, fun ch opts s ready hrun => ?_⟩
  have first := wordOf2_of_lt s.trunk.line.code_lt (by omega : s.trunk.faultRun < 2 ^ 8)
  rw [exec_readLineStatus_ready ready, first]
  by_cases hpage : (s.arg ch 0).toNat = 0
  · simp only [hpage, pageWords, served_clearPage_zero, if_true]
    rfl
  · simp only [pageWords, served_clearPage_of_ne_zero s ch _ opts hpage, if_neg hpage]
    rfl

end Sys2Proof.Machine
end

section
/-! The message buffers: the refused window access (R170) and RELEASE (R163). -/

namespace Sys2Proof.Machine

variable {s : State}

/-! ### A refused access of the window data word -/

/-- While reset in is not asserted, an event guarded by reset in has its effect (R188). -/
theorem unlessReset_running (f : State → State) (h : s.resetIn = false) : unlessReset f s = .next (f s) := by
  simp [unlessReset, h]

/-- A refused read returns 0 and sets the WINDOW cause. -/
theorem State.readWindow_refused {ch : Channel} (h : ¬ s.Holds ch (s.selected ch)) :
    s.readWindow ch = s.setPort ch { s.port ch with readData := 0, window := true } := by
  rw [State.readWindow, if_neg (mt (s.isHeld_iff ch _).1 h)]
  simp [State.windowRefused, State.setReadData]

/-- A refused write is discarded and sets the WINDOW cause. -/
theorem State.writeWindow_refused {ch : Channel} (v : Word) (h : ¬ s.Holds ch (s.selected ch)) :
    s.writeWindow ch v = s.setPort ch { s.port ch with window := true } := by
  rw [State.writeWindow, if_neg (mt (s.isHeld_iff ch _).1 h), State.windowRefused]

/-- Settles O9: the read and the write, each by the window's own test of the selected buffer. -/
theorem windowRefused : Obligations.WindowRefused := by
  unfold Obligations.WindowRefused
  intro ch v s running notHeld
  constructor
  · calc exec (.windowDataRead ch) s
      _ = .next (s.readWindow ch) := by simp [exec, execWindowDataRead, running]
      _ = _ := congrArg _ (State.readWindow_refused notHeld)
  · calc exec (.windowDataWrite ch v) s
      _ = .next (s.writeWindow ch v) := unlessReset_running (fun s => s.writeWindow ch v) running
      _ = _ := congrArg _ (State.writeWindow_refused v notHeld)

/-! ### RELEASE -/

theorem bufOf_eq_none {w : Word} (h : 31 < w.toNat) : bufOf w = none := by
  rw [bufOf, dif_neg (by omega)]

theorem bufOf_eq_some {w : Word} {b : BufNo} (h : b.val = w.toNat) : bufOf w = some b := by
  simp [bufOf, ← h]

/-- A buffer freed at the take of a command joins the tail of the free buffer list; its length and the contents of all
buffers stay. -/
theorem State.served_freeBuffer (s : State) (ch : Channel) (code opts : Byte) (b : BufNo) :
    (s.served ch code opts).freeBuffer b =
      { s.served ch code opts with pool := { s.pool with
          free := s.pool.free ++ [b]
          buffers := s.pool.buffers.set b { length := (s.buffer b).length, place := .free } } } := by
  cases ch <;> rfl

/-- RELEASE by its checks in order: the buffer number, then who holds the buffer (R163, R193). -/
theorem exec_release_ready {ch : Channel} (h : s.Ready ch 0x61) (opts : Byte) :
    exec (.release ch opts) s = .next
      (match bufOf (s.arg ch 0) with
        | none => (s.served ch 0x61 opts).answer ch .badArgument []
        | some b =>
          if s.isHeld ch b then
            ((s.served ch 0x61 opts).freeBuffer b).answer ch .ok [BitVec.ofNat 16 (s.pool.free.length + 1)]
          else (s.served ch 0x61 opts).answer ch .notHeld []) := by
  refine (command_ready h bodyRelease opts).trans (congrArg _ ?_)
  cases hb : bufOf (s.arg ch 0) with
  | none => simp [bodyRelease, hb]
  | some b => simp [bodyRelease, hb, wordOf]

/-- Settles O31: a number that names no buffer, a buffer that the channel does not hold, and one that it holds. -/
theorem releaseEffect : Obligations.ReleaseEffect := by
  unfold Obligations.ReleaseEffect
  intro ch opts s ready
  refine ⟨fun tooLarge => ?_, fun b hb => ?_⟩ <;> rw [exec_release_ready ready]
  · rw [bufOf_eq_none tooLarge]
  · simp only [bufOf_eq_some hb]
    by_cases held : s.Holds ch b
    · rw [if_pos ((s.isHeld_iff ch b).2 held), if_neg (not_not.2 held), State.served_freeBuffer]
    · rw [if_neg (mt (s.isHeld_iff ch b).1 held), if_pos held]

end Sys2Proof.Machine
end

section
/-! The machine's step and its pin reset (R72, R198), and the rows that are host commands. -/

namespace Sys2Proof.Machine

variable {s : State}

/-! ### The step -/

/-- Settles O1: the queue's front is matched. -/
theorem stepRunsFrontCommand : Obligations.StepRunsFrontCommand := by
  unfold Obligations.StepRunsFrontCommand
  intro c rest s h
  simp only [step, h]

theorem State.record_tick (running : s.resetIn = false) (i : SlotNo) : s.tick.record i =
    (s.record i).map fun r => { r with hold := r.hold.map fun n => if 25 < n then n - 25 else n } := by
  simp only [State.tick, running, State.record, State.slot, Fin.getElem_fin, Vector.getElem_map, Bool.false_eq_true,
    if_false]
  rfl

theorem State.gen_tick (i : SlotNo) : (s.tick.slot i).gen = (s.slot i).gen := by
  unfold State.tick
  split
  · rfl
  · simp [State.slot]

/-- Settles O2: on an empty queue the step is the tick. -/
theorem emptyQueueStepIsOneClockPeriod : Obligations.EmptyQueueStepIsOneClockPeriod := by
  unfold Obligations.EmptyQueueStepIsOneClockPeriod
  intro s empty running
  refine ⟨s.tick, by simp only [step, empty], ?_, fun i => ⟨State.gen_tick i, State.record_tick running i⟩⟩
  simp only [State.tick, running, Bool.false_eq_true, if_false]
  rfl

/-! ### Pin reset -/

theorem State.record_reset (i : SlotNo) : State.reset.record i = none := by
  simp [State.record, State.slot, State.reset]

theorem State.gen_reset (i : SlotNo) : (State.reset.slot i).gen = 0 := by
  simp [State.slot, State.reset]

theorem State.lookup_reset (a : Byte) : State.reset.lookup a = none := by
  simp [State.lookup, State.reset]

theorem State.buffer_reset (b : BufNo) : State.reset.buffer b = ⟨0, .free⟩ := by
  simp [State.buffer, State.reset]

theorem State.filter_reset (n : Fin 8) : State.reset.adm.filters[n] = Filter.atReset := by
  simp [State.reset]

theorem State.port_reset (ch : Channel) : State.reset.port ch = Port.atReset := by
  cases ch <;> rfl

/-- Settles O3: field by field, with one lemma for each table of the state. -/
theorem pinResetState : Obligations.PinResetState := by
  unfold Obligations.PinResetState
  refine ⟨⟨rfl, rfl, rfl⟩, ⟨fun i => ⟨State.gen_reset i, State.record_reset i⟩, State.lookup_reset, by decide, rfl, rfl⟩,
    ⟨rfl, rfl, rfl, rfl, rfl, rfl, rfl, rfl⟩, ⟨rfl, rfl, rfl, rfl, rfl, rfl, rfl, rfl⟩,
    ⟨rfl, rfl, rfl, rfl, rfl, rfl, rfl, rfl, rfl, rfl⟩, ⟨rfl, rfl, rfl, rfl, rfl, rfl, rfl, rfl, State.filter_reset⟩,
    ⟨by decide, rfl, State.buffer_reset, fun a => rfl⟩, fun ch => ?_⟩
  rw [State.port_reset]
  exact ⟨rfl, rfl, rfl, rfl, by cases ch <;> decide, rfl, rfl, rfl, rfl, rfl, by cases ch <;> decide⟩

/-! ### Rows that are host commands -/

/-- A BAD_COMMAND row whose code names no command is a host command that is refused (R193 check 1). -/
theorem execBadCommand_unassigned {code : Byte} (h : codeAssigned code = false) (ch : Channel) (opts : Byte) (s : State) :
    execBadCommand ch opts code s = command code (fun ch s => s.fail ch .badCommand) ch opts s := by
  simp [execBadCommand, command, h]

/-- A BAD_COMMAND row whose code names a command is the write of its word alone (log entry 25). -/
theorem execBadCommand_assigned {code : Byte} (h : codeAssigned code = true) (ch : Channel) (opts : Byte) (s : State) :
    execBadCommand ch opts code s = unlessReset (fun s => s.issued ch code opts) s := by
  simp [execBadCommand, h]

/-- Every row with an issuer and a code is a command with a body of its own, or the write of an assigned code's word. -/
theorem exec_of_issuer {c : Instr} {ch : Channel} {opts code : Byte} (hc : c.issuer = some (ch, opts))
    (hcode : c.commandCode = some code) :
    (∃ body, ∀ s, exec c s = command code body ch opts s)
      ∨ ∀ s, exec c s = unlessReset (fun s => s.issued ch code opts) s := by
  cases c
  case badCommand ch' opts' code' =>
    simp only [Instr.issuer, Option.some.injEq, Prod.mk.injEq] at hc
    simp only [Instr.commandCode, Option.some.injEq] at hcode
    obtain ⟨rfl, rfl⟩ := hc
    subst hcode
    cases h : codeAssigned code' with
    | false => exact .inl ⟨_, execBadCommand_unassigned h ch' opts'⟩
    | true => exact .inr (execBadCommand_assigned h ch' opts')
  all_goals
    first
    | (cases hc; done)
    | (simp only [Instr.issuer, Option.some.injEq, Prod.mk.injEq] at hc
       simp only [Instr.commandCode, Option.some.injEq] at hcode
       obtain ⟨rfl, rfl⟩ := hc
       subst hcode
       exact .inl ⟨_, fun s => rfl⟩)

/-- A row without an issuer is guarded by reset in, but for PIN_RESET and the read of the window data word. -/
theorem exec_of_no_issuer {c : Instr} (h : c.issuer = none) (hp : ∀ level, c ≠ .pinReset level)
    (hw : ∀ ch, c ≠ .windowDataRead ch) : ∃ f, ∀ s, exec c s = unlessReset f s := by
  cases c
  case pinReset level => exact absurd rfl (hp level)
  case windowDataRead ch => exact absurd rfl (hw ch)
  all_goals
    first
    | (cases h; done)
    | exact ⟨_, fun s => rfl⟩

theorem Instr.commandCode_of_issuer {c : Instr} {ch : Channel} {opts : Byte} (h : c.issuer = some (ch, opts)) :
    ∃ code, c.commandCode = some code := by
  cases c <;> first | (cases h; done) | exact ⟨_, rfl⟩

/-- While reset in is asserted a guarded row changes nothing (R188, R198). -/
theorem unlessReset_held (f : State → State) (h : s.resetIn = true) : unlessReset f s = .next s := by
  simp [unlessReset, h]

/-- While reset in is asserted every row but two leaves the state as it is. -/
theorem exec_reset {c : Instr} (held : s.resetIn = true) (hp : ∀ level, c ≠ .pinReset level)
    (hw : ∀ ch, c ≠ .windowDataRead ch) : exec c s = .next s := by
  cases hc : c.issuer with
  | none =>
    obtain ⟨f, hf⟩ := exec_of_no_issuer hc hp hw
    rw [hf, unlessReset_held f held]
  | some issuer =>
    obtain ⟨code, hcode⟩ := Instr.commandCode_of_issuer hc
    rcases exec_of_issuer hc hcode with ⟨body, hb⟩ | hb
    · rw [hb, command_reset held]
    · rw [hb, unlessReset_held _ held]

/-- Settles O4: PIN_RESET by its level, every other row by the guard it stands under. -/
theorem pinResetHoldsThePart : Obligations.PinResetHoldsThePart := by
  unfold Obligations.PinResetHoldsThePart
  intro s
  refine ⟨rfl, rfl, fun held c hp hw => exec_reset held hp hw, fun held ch => ?_, fun held addr => ?_⟩
  · simp [exec, execWindowDataRead, held, State.setReadData]
  · simp [State.readWord, held]

/-! ### The write of a command word, and the first two checks -/

/-- A host command's word is written, or the channel waits with it already (R190, log entry 2). -/
theorem State.issued_eq (s : State) (ch : Channel) (code opts : Byte) : s.issued ch code opts = s.setPort ch
    (match (s.port ch).state with
      | .idle | .done =>
        { s.port ch with state := .pending, code := code, opts := opts, done := false, overrun := false }
      | .pending => if (s.port ch).code = code then s.port ch else { s.port ch with overrun := true }
      | .executing => { s.port ch with overrun := true }) := by
  unfold State.issued State.pendingWith State.writeCommand
  cases hs : (s.port ch).state
  case pending => by_cases hc : (s.port ch).code = code <;> simp [hs, hc]
  all_goals simp [hs]

/-- Settles O5: a command not taken leaves the state as the write of its word does. -/
theorem commandWaitsItsTurn : Obligations.CommandWaitsItsTurn := by
  unfold Obligations.CommandWaitsItsTurn
  intro c ch opts code s hc hcode running notReady
  have written : exec c s = .next (s.issued ch code opts) := by
    rcases exec_of_issuer hc hcode with ⟨body, hb⟩ | hb
    · rw [hb, command_not_ready running notReady]
    · rw [hb, unlessReset_running _ running]
  exact written.trans (congrArg _ (s.issued_eq ch code opts))

/-- A command reserved to Channel 0 begins with the channel check (R193 check 2). -/
theorem exec_channel0Only {c : Instr} {ch : Channel} {opts code : Byte} (h : c.channel0Only = true)
    (hc : c.issuer = some (ch, opts)) (hcode : c.commandCode = some code) :
    ∃ body, (∀ s, exec c s = command code body ch opts s) ∧ ∀ s, body .ch1 s = s.fail .ch1 .notPermitted := by
  cases c
  all_goals
    first
    | (cases h; done)
    | (simp only [Instr.issuer, Option.some.injEq, Prod.mk.injEq] at hc
       simp only [Instr.commandCode, Option.some.injEq] at hcode
       obtain ⟨rfl, rfl⟩ := hc
       subst hcode
       exact ⟨_, fun s => rfl, fun s => rfl⟩)

/-- Settles O6: the body of a code that names no command, and the channel check that opens the body of the others. -/
theorem codeAndChannelChecks : Obligations.CodeAndChannelChecks := by
  unfold Obligations.CodeAndChannelChecks
  refine ⟨fun ch opts code s hcode ready => ?_, fun c opts code s h hc hcode ready => ?_⟩
  · calc exec (.badCommand ch opts code) s
      _ = .next ((s.served ch code opts).fail ch .badCommand) :=
        (execBadCommand_unassigned hcode ch opts s).trans (command_ready ready _ opts)
      _ = _ := congrArg _ (State.fail_answer _ ch (by decide))
  · obtain ⟨body, hb, hch1⟩ := exec_channel0Only h hc hcode
    rw [hb, command_ready ready, hch1]
    exact congrArg _ (State.fail_answer _ .ch1 (by decide))

end Sys2Proof.Machine
end

section
/-! The words of the host bus: causes, enables and outputs (R183 to R185), the accepted window access (R168, R169), and
the word map (R188 to R190). -/

namespace Sys2Proof.Machine

variable {s : State}

/-! ### Causes and outputs -/

theorem ne_zero_iff_exists_getLsbD {w : Nat} (x : BitVec w) :
    x ≠ 0 ↔ ∃ n : Fin w, x.getLsbD n = true := by
  constructor
  · intro hne
    by_contra hall
    push Not at hall
    exact hne (BitVec.eq_of_getLsbD_eq fun k hk => by simpa using hall ⟨k, hk⟩)
  · rintro ⟨n, hn⟩ rfl
    simp at hn

theorem State.undecidedPresent_iff (s : State) :
    s.undecidedPresent = true ↔ ∃ c ∈ s.adm.candidates, c.disposition = .undecided := by
  simp [State.undecidedPresent]

theorem State.getLsbD_causes (s : State) (ch : Channel) :
    (s.causes ch).getLsbD 0 = s.causeChange ch ∧ (s.causes ch).getLsbD 1 = s.causeMessage ch
      ∧ (s.causes ch).getLsbD 2 = (s.port ch).done ∧ (s.causes ch).getLsbD 3 = (s.port ch).window
      ∧ (s.causes ch).getLsbD 4 = s.causeCandidate ch ∧ (s.causes ch).getLsbD 5 = s.causeLine ch := by
  simp only [State.causes, BitVec.getLsbD_append]
  simp

theorem State.interruptOut_iff (s : State) (ch : Channel) : s.interruptOut ch = true ↔
    ∃ n : Fin 6, (s.causes ch).getLsbD n = true ∧ (s.port ch).enables.getLsbD n = true := by
  rw [State.interruptOut, decide_eq_true_iff, ne_zero_iff_exists_getLsbD]
  simp only [BitVec.getLsbD_and, Bool.and_eq_true]

/-- The enables of a write: all six on Channel 0, the four low ones on Channel 1 (R185). -/
def enableMask : Channel → BitVec 6
  | .ch0 => 0x3F
  | .ch1 => 0x0F

theorem State.writeEnable_eq (s : State) (ch : Channel) (v : Word) :
    s.writeEnable ch v = s.setPort ch { s.port ch with enables := v.setWidth 6 &&& enableMask ch } := by
  cases ch <;> rfl

theorem getLsbD_enableMask (ch : Channel) (n : Fin 6) :
    (enableMask ch).getLsbD n = (decide (ch = .ch0) || decide (n.val < 4)) := by
  cases ch <;> revert n <;> decide

/-- Settles O7: the two writes by the channel, and each cause and output by its own condition. -/
theorem interruptWordsAndOutputs : Obligations.InterruptWordsAndOutputs := by
  unfold Obligations.InterruptWordsAndOutputs
  refine ⟨fun ch v s running => ?_, fun ch v s running => ⟨v.setWidth 6 &&& enableMask ch, fun n => ?_, ?_⟩,
    fun ch s => ?_⟩
  · refine (unlessReset_running (fun s => s.writeCause ch v) running).trans (congrArg _ ?_)
    cases ch <;> rfl
  · rw [BitVec.getLsbD_and, getLsbD_enableMask, BitVec.getLsbD_setWidth]
    simp
  · refine (unlessReset_running (fun s => s.writeEnable ch v) running).trans (congrArg _ ?_)
    exact s.writeEnable_eq ch v
  · obtain ⟨h0, h1, h2, h3, h4, h5⟩ := s.getLsbD_causes ch
    refine ⟨s.interruptOut_iff ch, ?_, ?_, h2, h3, ?_, ?_, ?_, ?_⟩
    · rw [h0]
      simp [State.causeChange]
    · rw [h1]
      simp [State.causeMessage]
    · rw [h4]
      cases ch <;> simp [State.causeCandidate, State.undecidedPresent_iff]
    · rw [h5]
      cases ch <;> simp [State.causeLine]
    · simp [State.driverEnable]
    · simp [State.clockDriven]

/-! ### The window -/

theorem State.windowAddrs_eq (s : State) (ch : Channel) : s.windowAddrs ch =
    (128 * (s.port ch).winBuf.toNat + (s.port ch).winOff.toNat,
      128 * (s.port ch).winBuf.toNat + ((s.port ch).winOff.toNat + 1) % 128) := by
  simp [State.windowAddrs, State.selected, bufferBase, BitVec.toNat_add]

/-- An accepted read returns the byte at the offset, low, and the next one, high (R169). -/
theorem State.readWindow_accepted {ch : Channel} (h : s.Holds ch (s.selected ch)) :
    s.readWindow ch = s.setPort ch { s.port ch with
      readData := Memory.read s.pool.mem (s.windowAddrs ch).2 ++ Memory.read s.pool.mem (s.windowAddrs ch).1
      winOff := (s.port ch).winOff + 2 } := by
  rw [State.readWindow, if_pos ((s.isHeld_iff ch _).2 h)]
  simp [State.windowAdvance, State.setReadData, ofBytes]

/-- An accepted write writes the byte at the offset and the next one, and advances the offset (R169). -/
theorem State.writeWindow_accepted {ch : Channel} (v : Word) (h : s.Holds ch (s.selected ch)) :
    s.writeWindow ch v = { s.setPort ch { s.port ch with winOff := (s.port ch).winOff + 2 } with
      pool := { s.pool with
        mem := Memory.write (Memory.write s.pool.mem (s.windowAddrs ch).1 (loByte v)) (s.windowAddrs ch).2 (hiByte v) } } := by
  rw [State.writeWindow, if_pos ((s.isHeld_iff ch _).2 h)]
  cases ch <;> rfl

/-- Both bytes of a window access lie in the pool. -/
theorem State.windowAddrs_lt (s : State) (ch : Channel) :
    (s.windowAddrs ch).1 < poolBytes ∧ (s.windowAddrs ch).2 < poolBytes := by
  have hb := (s.port ch).winBuf.isLt
  have ho := (s.port ch).winOff.isLt
  rw [s.windowAddrs_eq]
  simp only [poolBytes]
  omega

theorem loByte_eq (v : Word) : loByte v = v.extractLsb' 0 8 := by
  ext k hk
  simp [loByte]

theorem hiByte_eq (v : Word) : hiByte v = v.extractLsb' 8 8 := by
  ext k hk
  simp [hiByte]

/-- Settles O8: the select word by its fields, and the two accesses at the window's two addresses. -/
theorem windowAccepted : Obligations.WindowAccepted := by
  unfold Obligations.WindowAccepted
  refine ⟨fun ch v s running => ?_, fun ch s running hwf held => ⟨?_, fun v => ⟨s.writeWindow ch v, ?_, ?_, fun a => ?_⟩⟩⟩
  · refine (unlessReset_running (fun s => s.writeSelect ch v) running).trans (congrArg _ ?_)
    have hoff : v.setWidth 7 = v.extractLsb' 0 7 := by ext k hk; simp
    have hbuf : (v >>> 8).setWidth 5 = v.extractLsb' 8 5 := by ext k hk; simp
    rw [State.writeSelect, hoff, hbuf]
  · refine Eq.trans (b := .next (s.readWindow ch)) (by simp [exec, execWindowDataRead, running]) (congrArg _ ?_)
    rw [State.readWindow_accepted held, s.windowAddrs_eq]
  · exact unlessReset_running (fun s => s.writeWindow ch v) running
  · rw [State.writeWindow_accepted v held]
  · obtain ⟨hlo, -⟩ := s.windowAddrs_lt ch
    have hne : (s.windowAddrs ch).1 ≠ (s.windowAddrs ch).2 := by
      have ho := (s.port ch).winOff.isLt
      rw [s.windowAddrs_eq]
      simp only
      omega
    rw [State.writeWindow_accepted v held, Memory.read_write (Memory.write_wf hwf hlo _), Memory.read_write hwf,
      ← loByte_eq, ← hiByte_eq]
    rw [s.windowAddrs_eq] at hne ⊢
    by_cases h1 : a = 128 * (s.port ch).winBuf.toNat + (s.port ch).winOff.toNat
    · rw [if_neg (by rw [h1]; exact hne), if_pos h1, if_pos h1]
    · rw [if_neg h1, if_neg h1]

/-! ### The word map -/

/-- The word address of an offset on a channel (spec/09 9.1). -/
def wordAddr (ch : Channel) (off : Fin 16) : BitVec 5 := BitVec.ofNat 5 (off.val + if ch = .ch1 then 16 else 0)

theorem addrChannel_wordAddr (ch : Channel) (off : Fin 16) : addrChannel (wordAddr ch off) = ch := by
  cases ch <;> revert off <;> decide

theorem addrOffset_wordAddr (ch : Channel) (off : Fin 16) : addrOffset (wordAddr ch off) = off.val := by
  cases ch <;> revert off <;> decide

theorem State.writeCommand_eq (s : State) (ch : Channel) (code opts : Byte) : s.writeCommand ch code opts =
    s.setPort ch (if (s.port ch).state = .idle ∨ (s.port ch).state = .done then
        { s.port ch with state := .pending, code := code, opts := opts, done := false, overrun := false }
      else { s.port ch with overrun := true }) := by
  unfold State.writeCommand
  cases hs : (s.port ch).state <;> simp [hs]

theorem State.writeArg_eq (s : State) (ch : Channel) (n : Fin 6) (v : Word) : s.writeArg ch n v =
    if (s.port ch).state = .idle ∨ (s.port ch).state = .done then
      s.setPort ch { s.port ch with words := (s.port ch).words.set n v }
    else s := by
  unfold State.writeArg
  cases hs : (s.port ch).state <;> simp [hs]

/-- The status word's three fields, each a code in its own bits. -/
theorem statusWord_fields (st : ChanState) (overrun : Bool) (result : ResultCode) :
    wordOf (bitsAt st.code 2 0 + bitsAt (yesNo overrun) 1 2 + bitsAt result.code 5 8) =
      (0 : BitVec 3) ++ BitVec.ofNat 5 result.code ++ (0 : BitVec 5) ++ BitVec.ofBool overrun ++ BitVec.ofNat 2 st.code := by
  cases st <;> cases overrun <;> cases result <;> rfl

theorem ChanState.idxOf_eq_code (st : ChanState) : List.idxOf st [.idle, .pending, .executing, .done] = st.code := by
  cases st <;> rfl

theorem ResultCode.idxOf_eq_code (result : ResultCode) :
    List.idxOf result [.ok, .badCommand, .badArgument, .notPermitted, .staleHandle, .wrongState, .noSlot, .noAddress,
      .addressInUse, .identityInUse, .queueFull, .noBuffer, .notHeld, .empty, .notFound, .lineActive, .aborted] =
      result.code := by
  cases result <;> rfl

theorem toNat_append_add {n m : Nat} (hi : BitVec n) (lo : BitVec m) :
    (hi ++ lo).toNat = hi.toNat * 2 ^ m + lo.toNat := by
  rw [BitVec.toNat_append, ← Nat.shiftLeft_add_eq_or_of_lt lo.isLt, Nat.shiftLeft_eq]

/-- The window select word's two fields. -/
theorem selectWord_fields (buf : BitVec 5) (off : BitVec 7) :
    wordOf (bitsAt off.toNat 7 0 + bitsAt buf.toNat 5 8) = (0 : BitVec 3) ++ buf ++ (0 : BitVec 1) ++ off := by
  have hb := buf.isLt
  have ho := off.isLt
  apply BitVec.eq_of_toNat_eq
  simp only [toNat_append_add, wordOf, bitsAt, BitVec.ofNat_eq_ofNat, BitVec.toNat_ofNat]
  omega

theorem setWidth_six (x : BitVec 6) : x.setWidth 16 = (0 : BitVec 10) ++ x := by
  apply BitVec.eq_of_toNat_eq
  have hx := x.isLt
  simp only [toNat_append_add, BitVec.toNat_setWidth, BitVec.ofNat_eq_ofNat, BitVec.toNat_ofNat]
  omega

/-- Settles O10: the offset is matched word by word, for the writes and for the reads. -/
theorem registerWriteByOffset : Obligations.RegisterWriteByOffset := by
  unfold Obligations.RegisterWriteByOffset
  refine ⟨fun ch off v s running => ?_, fun ch off s running hoff => ?_⟩
  · refine (unlessReset_running (fun s => s.busWrite (wordAddr ch off) v) running).trans ?_
    rw [State.busWrite, addrChannel_wordAddr, addrOffset_wordAddr]
    obtain ⟨k, hk⟩ := off
    match k, hk with
    | 0, _ =>
      rw [State.writeCommand_eq, loByte_eq, hiByte_eq]
      rfl
    | 1, _ => exact congrArg _ (s.writeArg_eq ch 0 v)
    | 2, _ => exact congrArg _ (s.writeArg_eq ch 1 v)
    | 3, _ => exact congrArg _ (s.writeArg_eq ch 2 v)
    | 4, _ => exact congrArg _ (s.writeArg_eq ch 3 v)
    | 5, _ => exact congrArg _ (s.writeArg_eq ch 4 v)
    | 6, _ => exact congrArg _ (s.writeArg_eq ch 5 v)
    | 7, _ => exact (unlessReset_running (fun s => s.writeCause ch v) running).symm
    | 8, _ => exact (unlessReset_running (fun s => s.writeEnable ch v) running).symm
    | 9, _ => exact (unlessReset_running (fun s => s.writeSelect ch v) running).symm
    | 10, _ => exact (unlessReset_running (fun s => s.writeWindow ch v) running).symm
    | 11, _ | 12, _ | 13, _ | 14, _ | 15, _ => rfl
    | _ + 16, hk => exact absurd hk (by omega)
  · refine Eq.trans (b := s.readWord (wordAddr ch off)) rfl ?_
    rw [State.readWord, addrChannel_wordAddr, addrOffset_wordAddr, running]
    obtain ⟨k, hk⟩ := off
    match k, hk with
    | 0, _ =>
      simp only [ChanState.idxOf_eq_code, ResultCode.idxOf_eq_code]
      exact statusWord_fields ..
    | 1, _ | 2, _ | 3, _ | 4, _ | 5, _ | 6, _ => rfl
    | 7, _ => exact setWidth_six _
    | 8, _ => exact setWidth_six _
    | 9, _ => exact selectWord_fields ..
    | 10, _ => exact absurd rfl hoff
    | 11, _ | 12, _ | 13, _ | 14, _ | 15, _ => rfl
    | _ + 16, hk => exact absurd hk (by omega)

end Sys2Proof.Machine
end

section
/-! What an event does to one record, said in one form: the record changes, buffers are given back, and the owner's Change
List follows the record's reasons (R157, R177). Posting and freeing are of this form, and two in a row are one. -/

namespace Sys2Proof.Machine

variable {s : State}

/-! ### Buffers freed in order -/

/-- Buffers that become FREE, one after the other, at the tail of the free buffer list (R157). -/
def State.freeAll (s : State) (bs : List BufNo) : State := bs.foldl State.freeBuffer s

@[simp] theorem State.freeAll_nil (s : State) : s.freeAll [] = s := rfl

@[simp] theorem State.freeAll_cons (s : State) (b : BufNo) (bs : List BufNo) :
    s.freeAll (b :: bs) = (s.freeBuffer b).freeAll bs := rfl

theorem State.freeAll_append (s : State) (bs cs : List BufNo) : s.freeAll (bs ++ cs) = (s.freeAll bs).freeAll cs :=
  List.foldl_append

theorem State.buffer_freeAll (bs : List BufNo) : ∀ (s : State) (c : BufNo),
    (s.freeAll bs).buffer c = if c ∈ bs then { s.buffer c with place := .free } else s.buffer c := by
  induction bs with
  | nil => exact fun s c => rfl
  | cons b bs ih =>
    intro s c
    rw [State.freeAll_cons, ih, State.buffer_freeBuffer]
    by_cases hb : b = c
    · subst hb; simp
    · simp [hb, Ne.symm hb]

/-- Freeing reads and changes the Buffer Manager alone. -/
theorem State.freeAll_eq (bs : List BufNo) : ∀ s : State, s.freeAll bs = { s with pool := (s.freeAll bs).pool } := by
  induction bs with
  | nil => exact fun s => rfl
  | cons b bs ih => exact fun s => ih (s.freeBuffer b)

theorem State.freeAll_pool_congr (bs : List BufNo) : ∀ {s t : State}, s.pool = t.pool →
    (s.freeAll bs).pool = (t.freeAll bs).pool := by
  induction bs with
  | nil => exact fun h => h
  | cons b bs ih =>
    intro s t h
    refine ih ?_
    simp only [State.freeBuffer, State.setPlace, State.setBuffer, State.buffer, h]

@[simp] theorem State.freeAll_free (s : State) (bs : List BufNo) : (s.freeAll bs).pool.free = s.pool.free ++ bs := by
  induction bs generalizing s with
  | nil => simp
  | cons b bs ih => simp [ih]

@[simp] theorem State.freeAll_mem (s : State) (bs : List BufNo) : (s.freeAll bs).pool.mem = s.pool.mem := by
  induction bs generalizing s with
  | nil => rfl
  | cons b bs ih => exact ih _

@[simp] theorem State.freeAll_floor (s : State) (bs : List BufNo) :
    (s.freeAll bs).pool.reserveFloor = s.pool.reserveFloor := by
  induction bs generalizing s with
  | nil => rfl
  | cons b bs ih => exact ih _

/-! ### One record touched -/

/-- The record of a slot changes from r to r', buffers join the free buffer list, and the slot joins its owner's Change
List when the change filled an empty set of reasons. -/
def State.touch (s : State) (i : SlotNo) (r r' : Record) (freed : List BufNo) : State :=
  { s.setPort r.owner { s.port r.owner with changeList := changeListAfter (s.port r.owner).changeList i r r' } with
    registry := { s.registry with slots := s.registry.slots.set i { s.slot i with record := some r' } }
    pool := (s.freeAll freed).pool }

/-- The record keeps its owner and loses no last reason, so a second touch can follow. -/
structure Record.Follows (r r' : Record) : Prop where
  owner : r'.owner = r.owner
  reasons : r'.reasons = 0 → r.reasons = 0

theorem Record.Follows.refl (r : Record) : r.Follows r := ⟨rfl, id⟩

theorem Record.Follows.trans {r r' r'' : Record} (h : r.Follows r') (k : r'.Follows r'') : r.Follows r'' :=
  ⟨k.owner.trans h.owner, fun e => h.reasons (k.reasons e)⟩

theorem changeListAfter_trans {r r' r'' : Record} (h : r.Follows r') (k : r'.Follows r'') (list : List SlotNo)
    (i : SlotNo) :
    changeListAfter (changeListAfter list i r r') i r' r'' = changeListAfter list i r r'' := by
  have h1 := h.reasons
  have h2 := k.reasons
  unfold changeListAfter
  by_cases a : r.reasons = 0 <;> by_cases b : r'.reasons = 0 <;> by_cases c : r''.reasons = 0 <;> simp_all

theorem changeListAfter_of_reasons {r r' : Record} (h : r'.reasons = r.reasons) (list : List SlotNo) (i : SlotNo) :
    changeListAfter list i r r' = list := by
  rw [changeListAfter, h, if_neg fun ⟨e, ne⟩ => ne e]

/-- Two touches in a row are one. -/
theorem State.touch_touch (i : SlotNo) {r r' r'' : Record} (h : r.Follows r') (k : r'.Follows r'')
    (bs cs : List BufNo) : (s.touch i r r' bs).touch i r' r'' cs = s.touch i r r'' (bs ++ cs) := by
  have hpool : ((s.touch i r r' bs).freeAll cs).pool = (s.freeAll (bs ++ cs)).pool := by
    rw [State.freeAll_append]
    exact State.freeAll_pool_congr cs rfl
  have hlist := changeListAfter_trans h k (s.port r.owner).changeList i
  unfold State.touch at hpool ⊢
  rw [hpool, h.owner, ← hlist]
  cases r.owner <;> simp [State.setPort, State.port, State.slot]

theorem State.touch_self {i : SlotNo} {r : Record} (h : s.record i = some r) (bs : List BufNo) :
    s.touch i r r bs = s.freeAll bs := by
  have hslot : ({ s.slot i with record := some r } : Slot) = s.slot i := by rw [← h]; rfl
  rw [State.touch, changeListAfter_of_reasons rfl, hslot, s.freeAll_eq]
  cases r.owner <;> simp [State.slot, State.setPort, State.port]

theorem State.touch_freeBuffer (i : SlotNo) (r r' : Record) (bs : List BufNo) (b : BufNo) :
    (s.touch i r r' bs).freeBuffer b = s.touch i r r' (bs ++ [b]) := by
  have h : ((s.touch i r r' bs).freeBuffer b).pool = (s.freeAll (bs ++ [b])).pool := by
    rw [State.freeAll_append]
    exact State.freeAll_pool_congr [b] rfl
  exact (show (s.touch i r r' bs).freeBuffer b = { s.touch i r r' bs with
    pool := ((s.touch i r r' bs).freeBuffer b).pool } from rfl).trans (by rw [h]; rfl)

/-- A record changed with its reasons kept. -/
theorem State.setRecord_eq_touch (i : SlotNo) {r r' : Record} (h : r'.reasons = r.reasons) :
    s.setRecord i (some r') = s.touch i r r' [] := by
  rw [State.touch, changeListAfter_of_reasons h]
  cases r.owner <;> rfl

theorem Reason.bit_or_ne_zero (why : Reason) (x : BitVec 9) : x ||| why.bit ≠ 0 := by
  intro h
  have := (BitVec.or_eq_zero_iff.1 h).2
  cases why <;> revert this <;> decide

theorem Record.follows_addReason (r : Record) (why : Reason) : r.Follows (r.addReason why) :=
  ⟨rfl, fun h => absurd h (why.bit_or_ne_zero r.reasons)⟩

/-- Posting touches the record (R177). -/
theorem State.post_eq_touch {i : SlotNo} {r : Record} (h : s.record i = some r) (hs : r.state ≠ .retired)
    (why : Reason) : s.post i why = s.touch i r (r.addReason why) [] := by
  have ne : (r.addReason why).reasons ≠ 0 := why.bit_or_ne_zero r.reasons
  rw [State.post, h]
  dsimp only
  rw [if_neg hs]
  split
  · next e =>
    rw [State.touch, changeListAfter, if_pos ⟨e, ne⟩]
    cases r.owner <;> rfl
  · next e =>
    rw [State.touch, changeListAfter, if_neg fun ⟨z, _⟩ => e z]
    cases r.owner <;> rfl

theorem State.post_retired {i : SlotNo} {r : Record} (h : s.record i = some r) (hs : r.state = .retired)
    (why : Reason) : s.post i why = s := by
  simp [State.post, h, hs]

/-! ### What a touch leaves -/

@[simp] theorem State.touch_pending (i : SlotNo) (r r' : Record) (bs : List BufNo) :
    (s.touch i r r' bs).pending = s.pending := s.setPort_pending ..
@[simp] theorem State.touch_resetIn (i : SlotNo) (r r' : Record) (bs : List BufNo) :
    (s.touch i r r' bs).resetIn = s.resetIn := s.setPort_resetIn ..
@[simp] theorem State.touch_poll (i : SlotNo) (r r' : Record) (bs : List BufNo) :
    (s.touch i r r' bs).poll = s.poll := s.setPort_poll ..
@[simp] theorem State.touch_trunk (i : SlotNo) (r r' : Record) (bs : List BufNo) :
    (s.touch i r r' bs).trunk = s.trunk := s.setPort_trunk ..
@[simp] theorem State.touch_adm (i : SlotNo) (r r' : Record) (bs : List BufNo) :
    (s.touch i r r' bs).adm = s.adm := s.setPort_adm ..
@[simp] theorem State.touch_lineCause (i : SlotNo) (r r' : Record) (bs : List BufNo) :
    (s.touch i r r' bs).lineCause = s.lineCause := s.setPort_lineCause ..
@[simp] theorem State.touch_servedLast (i : SlotNo) (r r' : Record) (bs : List BufNo) :
    (s.touch i r r' bs).servedLast = s.servedLast := s.setPort_servedLast ..
@[simp] theorem State.touch_registry (i : SlotNo) (r r' : Record) (bs : List BufNo) :
    (s.touch i r r' bs).registry = (s.setRecord i (some r')).registry := rfl
@[simp] theorem State.touch_pool (i : SlotNo) (r r' : Record) (bs : List BufNo) :
    (s.touch i r r' bs).pool = (s.freeAll bs).pool := rfl
@[simp] theorem State.touch_holds (i j : SlotNo) (r r' : Record) (bs : List BufNo) :
    (s.touch i r r' bs).holds j = s.holds j := by simp [State.holds]
@[simp] theorem State.touch_carried (i j : SlotNo) (r r' : Record) (bs : List BufNo) :
    (s.touch i r r' bs).carried j = s.carried j := by simp [State.carried]
@[simp] theorem State.touch_lookup (i : SlotNo) (r r' : Record) (bs : List BufNo) (a : Byte) :
    (s.touch i r r' bs).lookup a = s.lookup a := rfl

theorem State.slot_touch (i j : SlotNo) (r r' : Record) (bs : List BufNo) :
    (s.touch i r r' bs).slot j = if i = j then { s.slot i with record := some r' } else s.slot j :=
  s.slot_setRecord i j (some r')

theorem State.record_touch (i j : SlotNo) (r r' : Record) (bs : List BufNo) :
    (s.touch i r r' bs).record j = if i = j then some r' else s.record j :=
  s.record_setRecord i j (some r')

@[simp] theorem State.record_touch_same (i : SlotNo) (r r' : Record) (bs : List BufNo) :
    (s.touch i r r' bs).record i = some r' := s.record_setRecord_same i (some r')

@[simp] theorem State.gen_touch (i j : SlotNo) (r r' : Record) (bs : List BufNo) :
    ((s.touch i r r' bs).slot j).gen = (s.slot j).gen := s.gen_setRecord i j (some r')

@[simp] theorem State.touch_handle (i j : SlotNo) (r r' : Record) (bs : List BufNo) :
    (s.touch i r r' bs).handle j = s.handle j := by simp [State.handle]

theorem State.buffer_touch (i : SlotNo) (r r' : Record) (bs : List BufNo) (c : BufNo) :
    (s.touch i r r' bs).buffer c = if c ∈ bs then { s.buffer c with place := .free } else s.buffer c :=
  State.buffer_freeAll bs s c

@[simp] theorem State.port_touch_same (i : SlotNo) (r r' : Record) (bs : List BufNo) :
    (s.touch i r r' bs).port r.owner =
      { s.port r.owner with changeList := changeListAfter (s.port r.owner).changeList i r r' } :=
  s.port_setPort_same ..

@[simp] theorem State.port_touch_other (i : SlotNo) (r r' : Record) (bs : List BufNo) :
    (s.touch i r r' bs).port (otherChannel r.owner) = s.port (otherChannel r.owner) :=
  s.port_setPort_other ..

/-- A touch changes a channel's Change List at most. -/
theorem State.port_touch (i : SlotNo) (r r' : Record) (bs : List BufNo) (ch : Channel) :
    (s.touch i r r' bs).port ch = { s.port ch with
      changeList := if ch = r.owner then changeListAfter (s.port ch).changeList i r r' else (s.port ch).changeList } := by
  refine (s.port_setPort r.owner ch _).trans ?_
  split
  · next e => subst e; rfl
  · rfl

end Sys2Proof.Machine
end

section
/-! Posting (R177) and retirement (R18 to R23) as touches of one record. -/

namespace Sys2Proof.Machine

variable {s : State}

/-- Settles O49: the bits reason by reason, and posting as a touch of the record. -/
theorem postingAReason : Obligations.PostingAReason := by
  unfold Obligations.PostingAReason
  refine ⟨fun why => by cases why <;> rfl, fun s i r why h => ⟨fun retired => State.post_retired h retired why,
    fun notRetired => ?_⟩⟩
  rw [State.post, h]
  dsimp only
  rw [if_neg notRetired]
  rfl

/-! ### Updates that commute with a touch -/

theorem State.setIndex_touch (a : Byte) (e : Option SlotNo) (i : SlotNo) (r r' : Record) (bs : List BufNo) :
    (s.setIndex a e).touch i r r' bs = (s.touch i r r' bs).setIndex a e := by
  have hpool := State.freeAll_pool_congr bs (show (s.setIndex a e).pool = s.pool from rfl)
  rw [State.touch, hpool, State.touch]
  cases r.owner <;> rfl

theorem State.removeRing_touch (j i : SlotNo) (r r' : Record) (bs : List BufNo) :
    (s.touch i r r' bs).removeRing j = (s.removeRing j).touch i r r' bs := by
  unfold State.removeRing
  rw [State.touch_poll]
  split
  · have hpool := State.freeAll_pool_congr bs (show ({ s with poll := { s.poll with
        ring := s.poll.ring.erase j
        cursor := if s.poll.ring.idxOf j < s.poll.cursor then s.poll.cursor - 1 else s.poll.cursor } } : State).pool
      = s.pool from rfl)
    rw [State.touch, State.touch, hpool]
    cases r.owner <;> rfl
  · rfl

theorem State.removeAdmit_touch (j i : SlotNo) (r r' : Record) (bs : List BufNo) :
    (s.touch i r r' bs).removeAdmit j = (s.removeAdmit j).touch i r r' bs := by
  have hpool := State.freeAll_pool_congr bs (show (s.removeAdmit j).pool = s.pool from rfl)
  rw [State.touch, State.touch, hpool]
  cases r.owner <;> rfl

/-! ### Updates after a touch -/

theorem State.touch_setRecord (i : SlotNo) {r r' r'' : Record} (bs : List BufNo) (f : r.Follows r')
    (ho : r''.owner = r'.owner) (hr : r''.reasons = r'.reasons) :
    (s.touch i r r' bs).setRecord i (some r'') = s.touch i r r'' bs := by
  rw [State.setRecord_eq_touch i hr, State.touch_touch i f ⟨ho, fun h => hr ▸ h⟩, List.append_nil]

theorem State.touch_updRecord (i : SlotNo) {r r' : Record} (bs : List BufNo) (f : Record → Record) (k : r.Follows r')
    (ho : (f r').owner = r'.owner) (hr : (f r').reasons = r'.reasons) :
    (s.touch i r r' bs).updRecord i f = s.touch i r (f r') bs := by
  rw [State.updRecord_some _ f (State.record_touch_same ..), State.touch_setRecord i bs k ho hr]

theorem State.touch_post (i : SlotNo) {r r' : Record} (bs : List BufNo) (why : Reason) (k : r.Follows r')
    (hs : r'.state ≠ .retired) : (s.touch i r r' bs).post i why = s.touch i r (r'.addReason why) bs := by
  rw [State.post_eq_touch (State.record_touch_same ..) hs, State.touch_touch i k (r'.follows_addReason why),
    List.append_nil]

/-! ### Entering RETIRED (R23) -/

/-- The record of a slot that has entered RETIRED. -/
def Record.retiredNow (r : Record) : Record :=
  { r with state := .retired, dismissPending := none, reasons := r.reasons ||| 0x100 }

theorem Record.follows_retiredNow (r : Record) : r.Follows r.retiredNow :=
  ⟨rfl, fun h => absurd h (Reason.retired.bit_or_ne_zero r.reasons)⟩

theorem State.enterRetired_eq {i : SlotNo} {r : Record} (h : s.record i = some r) (hs : r.state ≠ .retired) :
    s.enterRetired i = (s.touch i r r.retiredNow []).setIndex r.address none := by
  have hr : (s.setIndex r.address none).record i = some r := h
  have f1 : r.Follows { r with dismissPending := none } := ⟨rfl, id⟩
  rw [State.enterRetired, h]
  dsimp only
  rw [← State.freeAll_nil (s.setIndex r.address none), ← State.touch_self hr,
    State.touch_updRecord i [] _ (.refl r) rfl rfl, State.touch_post i [] _ f1 hs,
    State.touch_updRecord i [] _ (f1.trans (Record.follows_addReason _ _)) rfl rfl, State.setIndex_touch]
  rfl

/-! ### Entering retirement (R19, R20) -/

/-- A record whose buffers are given back undelivered, n of them (R19 step 4). -/
def Record.undeliveredBy (r : Record) (n : Nat) : Record :=
  if n = 0 then r else { r with reasons := r.reasons ||| 0x040, undelivered := min 255 (r.undelivered + n) }

theorem Record.undeliveredBy_succ (r : Record) (n : Nat) :
    (r.addReason .undelivered).undeliveredBy n = r.undeliveredBy (n + 1) := by
  unfold Record.undeliveredBy Record.addReason
  by_cases h : n = 0
  · simp [h, Reason.bit, satInc]
  · have : min 255 (min 255 (r.undelivered + 1) + n) = min 255 (r.undelivered + (n + 1)) := by omega
    simp [h, Reason.bit, satInc, this, BitVec.or_assoc]

theorem Record.follows_undeliveredBy (r : Record) (n : Nat) : r.Follows (r.undeliveredBy n) := by
  unfold Record.undeliveredBy
  split
  · exact .refl r
  · exact ⟨rfl, fun h => absurd h (Reason.undelivered.bit_or_ne_zero r.reasons)⟩

@[simp] theorem Record.undeliveredBy_state (r : Record) (n : Nat) : (r.undeliveredBy n).state = r.state := by
  unfold Record.undeliveredBy; split <;> rfl

@[simp] theorem Record.undeliveredBy_address (r : Record) (n : Nat) : (r.undeliveredBy n).address = r.address := by
  unfold Record.undeliveredBy; split <;> rfl

theorem State.touch_freeUndelivered (i : SlotNo) {r : Record} (cs : List BufNo) : ∀ {r' : Record} (bs : List BufNo),
    r.Follows r' → r'.state ≠ .retired →
    (s.touch i r r' bs).freeUndelivered i cs = s.touch i r (r'.undeliveredBy cs.length) (bs ++ cs) := by
  induction cs with
  | nil =>
    intro r' bs _ _
    simp [State.freeUndelivered, Record.undeliveredBy]
  | cons c cs ih =>
    intro r' bs k hs
    rw [State.freeUndelivered, State.touch_freeBuffer, State.touch_post i _ _ k hs,
      ih _ (k.trans (r'.follows_addReason _)) hs, Record.undeliveredBy_succ]
    simp

/-- A record leaves the Ring if it is a member and the Admit Queue if it is ADMITTING (R19 step 2). -/
def State.leaveQueues (s : State) (i : SlotNo) (r : Record) : State :=
  let s1 := if r.state.isMember then s.removeRing i else s
  if r.state = .admitting then s1.removeAdmit i else s1

/-- The record after entering retirement, and then RETIRING, or else RETIRED, if it stays (R19, R20). -/
def Record.enteredRetirement (r : Record) (cause : RetireCause) (kept gone : List BufNo) (stays dismiss : Bool) :
    Record :=
  { r with
    state := if stays then .retiring else .retired
    retireCause := some cause
    hold := none
    outq := kept
    headAttempts := if kept = [] then none else r.headAttempts
    skip := none
    missCount := none
    failedProbes := none
    admitAttempts := none
    dismissPending := if stays then some dismiss else none
    reasons := r.reasons ||| (if gone = [] then 0 else 0x040) ||| (if stays then 0 else 0x100)
    undelivered := if gone = [] then r.undelivered else min 255 (r.undelivered + gone.length) }

/-- The carried buffer stays in the outbound queue of a record that enters retirement, and the others leave it. -/
def State.keptBuffers (s : State) (i : SlotNo) (r : Record) : List BufNo := r.outq.filter fun b => s.carried i = some b
def State.goneBuffers (s : State) (i : SlotNo) (r : Record) : List BufNo := r.outq.filter fun b => s.carried i ≠ some b

theorem State.leaveQueues_touch (i : SlotNo) (r q q' : Record) (bs : List BufNo) :
    (s.touch i q q' bs).leaveQueues i r = (s.leaveQueues i r).touch i q q' bs := by
  unfold State.leaveQueues
  split <;> split <;> simp only [State.removeRing_touch, State.removeAdmit_touch]

/-- The record that enters retirement and stays: the fields discarded, the buffers given back, and then its state. -/
theorem Record.enteredRetirement_stays (r : Record) (cause : RetireCause) (kept gone : List BufNo) (dismiss : Bool) :
    ({ (r.retireFields cause kept).undeliveredBy gone.length with
      state := .retiring, dismissPending := some dismiss } : Record) =
      r.enteredRetirement cause kept gone true dismiss := by
  unfold Record.undeliveredBy Record.retireFields Record.enteredRetirement
  cases gone <;> simp

theorem Record.enteredRetirement_retired (r : Record) (cause : RetireCause) (kept gone : List BufNo) (dismiss : Bool) :
    ((r.retireFields cause kept).undeliveredBy gone.length).retiredNow =
      r.enteredRetirement cause kept gone false dismiss := by
  unfold Record.undeliveredBy Record.retireFields Record.retiredNow Record.enteredRetirement
  cases gone <;> simp

/-- Entering retirement is a touch of the record out of the Ring or the Admit Queue; then the record joins the Dismissal
Queue, or its address leaves the Address Index, or neither. -/
theorem State.enterRetirement_eq {i : SlotNo} {r : Record} (h : s.record i = some r) (hs : r.state ≠ .retired)
    (cause : RetireCause) (dismiss : Bool) :
    let touched := (s.leaveQueues i r).touch i r (r.enteredRetirement cause (s.keptBuffers i r) (s.goneBuffers i r)
      (s.holds i || dismiss) dismiss) (s.goneBuffers i r)
    s.enterRetirement i cause dismiss =
      if dismiss then touched.joinDismiss i
      else if s.holds i then touched else touched.setIndex r.address none := by
  have f1 : r.Follows (r.retireFields cause (s.keptBuffers i r)) := ⟨rfl, id⟩
  have f2 := f1.trans (Record.follows_undeliveredBy _ (s.goneBuffers i r).length)
  let s4 := ((s.setRecord i (some (r.retireFields cause (s.keptBuffers i r)))).leaveQueues i r).freeUndelivered i
    (s.goneBuffers i r)
  have given : s4 = (s.leaveQueues i r).touch i r
      ((r.retireFields cause (s.keptBuffers i r)).undeliveredBy (s.goneBuffers i r).length) (s.goneBuffers i r) := by
    unfold s4
    rw [State.setRecord_eq_touch (r := r) (r' := r.retireFields cause (s.keptBuffers i r)) i rfl,
      State.leaveQueues_touch, State.touch_freeUndelivered i _ _ f1 hs, List.nil_append]
  have stays : (s4.updRecord i fun q => { q with state := .retiring, dismissPending := some dismiss }) =
      (s.leaveQueues i r).touch i r
        (r.enteredRetirement cause (s.keptBuffers i r) (s.goneBuffers i r) true dismiss) (s.goneBuffers i r) := by
    rw [given, State.touch_updRecord i _ _ f2 rfl rfl]
    exact congrArg (State.touch _ i r · _) (r.enteredRetirement_stays ..)
  have retires : s4.enterRetired i = ((s.leaveQueues i r).touch i r
      (r.enteredRetirement cause (s.keptBuffers i r) (s.goneBuffers i r) false dismiss)
        (s.goneBuffers i r)).setIndex r.address none := by
    rw [given, State.enterRetired_eq (State.record_touch_same ..) (by simpa [Record.retireFields] using hs),
      State.touch_touch i f2 (Record.follows_retiredNow _), List.append_nil, Record.enteredRetirement_retired,
      Record.undeliveredBy_address]
    rfl
  have shape : s.enterRetirement i cause dismiss =
      if (s.holds i || dismiss) = true then
        let s5 := s4.updRecord i fun q => { q with state := .retiring, dismissPending := some dismiss }
        if dismiss = true then s5.joinDismiss i else s5
      else s4.enterRetired i := by
    rw [State.enterRetirement, h]
    rfl
  intro touched
  rw [shape, stays, retires]
  unfold touched
  cases dismiss <;> cases s.holds i <;> rfl

/-! ### What retirement leaves -/

/-- Every record stands after entering retirement in the state it settles in, and no other record changes. -/
theorem State.record_enterRetirement {i : SlotNo} {r : Record} (h : s.record i = some r) (hs : r.state ≠ .retired)
    (cause : RetireCause) (dismiss : Bool) : (s.enterRetirement i cause dismiss).record i =
      some (r.enteredRetirement cause (s.keptBuffers i r) (s.goneBuffers i r) (s.holds i || dismiss) dismiss) := by
  rw [State.enterRetirement_eq h hs]
  cases dismiss <;> cases s.holds i <;>
    exact State.record_touch_same i r _ (s.goneBuffers i r)

/-- The parts a record leaves when it enters retirement: the Ring with its cursor, and the Admit Queue. -/
theorem State.leaveQueues_eq (s : State) (i : SlotNo) (r : Record) : s.leaveQueues i r = { s with
    poll := if r.state.isMember = true ∧ i ∈ s.poll.ring then
        { s.poll with
          ring := s.poll.ring.erase i
          cursor := if s.poll.ring.idxOf i < s.poll.cursor then s.poll.cursor - 1 else s.poll.cursor }
      else s.poll
    registry := { s.registry with
      admitQueue := if r.state = .admitting then s.registry.admitQueue.erase i else s.registry.admitQueue } } := by
  unfold State.leaveQueues State.removeRing State.removeAdmit
  cases r.state <;> by_cases hi : i ∈ s.poll.ring <;> simp [RecState.isMember, hi]

@[simp] theorem State.leaveQueues_port (i : SlotNo) (r : Record) (ch : Channel) :
    (s.leaveQueues i r).port ch = s.port ch := by
  rw [State.leaveQueues_eq]; cases ch <;> rfl

@[simp] theorem State.leaveQueues_slot (i j : SlotNo) (r : Record) : (s.leaveQueues i r).slot j = s.slot j := by
  rw [State.leaveQueues_eq]; rfl

@[simp] theorem State.leaveQueues_pool (i : SlotNo) (r : Record) : (s.leaveQueues i r).pool = s.pool := by
  rw [State.leaveQueues_eq]

@[simp] theorem State.leaveQueues_trunk (i : SlotNo) (r : Record) : (s.leaveQueues i r).trunk = s.trunk := by
  rw [State.leaveQueues_eq]
@[simp] theorem State.leaveQueues_adm (i : SlotNo) (r : Record) : (s.leaveQueues i r).adm = s.adm := by
  rw [State.leaveQueues_eq]
@[simp] theorem State.leaveQueues_pending (i : SlotNo) (r : Record) : (s.leaveQueues i r).pending = s.pending := by
  rw [State.leaveQueues_eq]
@[simp] theorem State.leaveQueues_resetIn (i : SlotNo) (r : Record) : (s.leaveQueues i r).resetIn = s.resetIn := by
  rw [State.leaveQueues_eq]
@[simp] theorem State.leaveQueues_lineCause (i : SlotNo) (r : Record) : (s.leaveQueues i r).lineCause = s.lineCause := by
  rw [State.leaveQueues_eq]
@[simp] theorem State.leaveQueues_servedLast (i : SlotNo) (r : Record) : (s.leaveQueues i r).servedLast = s.servedLast := by
  rw [State.leaveQueues_eq]

/-- The parts of a touch with other updates of the registry around it, as the statement of retirement lists them. -/
theorem State.retirement_parts (i : SlotNo) (r r' : Record) (gone : List BufNo) (t : State)
    (ht : t = (s.leaveQueues i r).touch i r r' gone ∨ t = ((s.leaveQueues i r).touch i r r' gone).joinDismiss i
      ∨ t = ((s.leaveQueues i r).touch i r r' gone).setIndex r.address none) :
    t.poll = (s.leaveQueues i r).poll ∧ t.pool = (s.freeAll gone).pool
      ∧ t.port r.owner = { s.port r.owner with changeList := changeListAfter (s.port r.owner).changeList i r r' }
      ∧ t.port (otherChannel r.owner) = s.port (otherChannel r.owner)
      ∧ t.trunk = s.trunk ∧ t.adm = s.adm ∧ t.pending = s.pending ∧ t.resetIn = s.resetIn
      ∧ t.lineCause = s.lineCause ∧ t.servedLast = s.servedLast := by
  have hpool := State.freeAll_pool_congr gone (s.leaveQueues_pool i r)
  have hport := State.port_touch_same (s := s.leaveQueues i r) i r r' gone
  have hother := State.port_touch_other (s := s.leaveQueues i r) i r r' gone
  rw [State.leaveQueues_port] at hport hother
  rcases ht with rfl | rfl | rfl <;>
    exact ⟨State.touch_poll i r r' gone, hpool, hport, hother, (State.touch_trunk i r r' gone).trans (State.leaveQueues_trunk i r),
      (State.touch_adm i r r' gone).trans (State.leaveQueues_adm i r),
      (State.touch_pending i r r' gone).trans (State.leaveQueues_pending i r), (State.touch_resetIn i r r' gone).trans (State.leaveQueues_resetIn i r),
      (State.touch_lineCause i r r' gone).trans (State.leaveQueues_lineCause i r), (State.touch_servedLast i r r' gone).trans (State.leaveQueues_servedLast i r)⟩

theorem State.enterRetirement_cases {i : SlotNo} {r : Record} (h : s.record i = some r) (hs : r.state ≠ .retired)
    (cause : RetireCause) (dismiss : Bool) :
    let t := s.enterRetirement i cause dismiss
    let r' := r.enteredRetirement cause (s.keptBuffers i r) (s.goneBuffers i r) (s.holds i || dismiss) dismiss
    let touched := (s.leaveQueues i r).touch i r r' (s.goneBuffers i r)
    t = touched ∨ t = touched.joinDismiss i ∨ t = touched.setIndex r.address none := by
  intro t r' touched
  have e : t = _ := State.enterRetirement_eq h hs cause dismiss
  cases dismiss
  · cases hh : s.holds i
    · exact .inr (.inr (e.trans ((if_neg (by decide)).trans (if_neg (by simp [hh])))))
    · exact .inl (e.trans ((if_neg (by decide)).trans (if_pos hh)))
  · exact .inr (.inl e)

theorem State.registry_enterRetirement {i : SlotNo} {r : Record} (h : s.record i = some r) (hs : r.state ≠ .retired)
    (cause : RetireCause) (dismiss : Bool) : (s.enterRetirement i cause dismiss).registry = { s.registry with
      slots := s.registry.slots.set i { s.slot i with record := some (r.enteredRetirement cause (s.keptBuffers i r)
        (s.goneBuffers i r) (s.holds i || dismiss) dismiss) }
      addressIndex := if s.holds i || dismiss then s.registry.addressIndex
        else s.registry.addressIndex.set r.address.toFin none
      admitQueue := if r.state = .admitting then s.registry.admitQueue.erase i else s.registry.admitQueue
      dismissQueue := if dismiss then s.registry.dismissQueue ++ [i] else s.registry.dismissQueue } := by
  rw [State.enterRetirement_eq h hs, State.leaveQueues_eq]
  cases dismiss <;> cases s.holds i <;> rfl

/-- Settles O50: the closed forms of entering retirement and of entering RETIRED. -/
theorem retirementEntered : Obligations.RetirementEntered := by
  unfold Obligations.RetirementEntered
  refine ⟨fun s i r cause dismiss h _ hs _ => ?_, fun s i r h hs => ?_⟩
  · obtain ⟨h1, h2, h3, h4, h5, h6, h7, h8, h9, h10⟩ :=
      State.retirement_parts (s := s) i r _ _ _ (State.enterRetirement_cases h hs cause dismiss)
    intro t stays kept gone r'
    have hbuf : ∀ b, t.buffer b = if b ∈ gone then { s.buffer b with place := .free } else s.buffer b := fun b => by
      rw [← State.buffer_freeAll]
      exact congrArg (fun p : Pool => p.buffers[b]) h2
    refine ⟨State.registry_enterRetirement h hs cause dismiss, ?_, ?_, ?_, ?_, hbuf, h3, h4, h5, h6, h7, h8, h9, h10⟩
    · rw [h1, State.leaveQueues_eq]
    · rw [h2, State.freeAll_free]; rfl
    · rw [h2, State.freeAll_mem]
    · rw [h2, State.freeAll_floor]
  · have kept : ∀ (c : Channel) (p : Port) (reg : Registry),
        ({ s.setPort c p with registry := reg, pool := s.pool } : State) = { s.setPort c p with registry := reg } := by
      intro c p reg
      cases c <;> rfl
    rw [State.enterRetired_eq h hs]
    exact kept _ _ _

end Sys2Proof.Machine
end

section
/-! The Station Registry's commands on one record: RETIRE, SUSPEND, RESUME, SET CLASS, TRANSFER and CLEAR HOLD (R27 to R31,
R128). -/

namespace Sys2Proof.Machine

variable {s : State}

/-! ### Retirement's answer -/

theorem State.stateCode_of_record {i : SlotNo} {r : Record} (h : s.record i = some r) : s.stateCode i = r.state.code := by
  simp only [State.stateCode, h]

theorem State.stateCode_enterRetirement {i : SlotNo} {r : Record} (h : s.record i = some r) (hs : r.state ≠ .retired)
    (cause : RetireCause) (dismiss : Bool) :
    wordOf ((s.enterRetirement i cause dismiss).stateCode i) = if s.holds i = true ∨ dismiss = true then 5 else 6 := by
  rw [State.stateCode_of_record (State.record_enterRetirement h hs cause dismiss)]
  cases dismiss <;> cases s.holds i <;> rfl

/-- The record that the handle in W1 names stands in its slot. -/
theorem State.record_of_named {ch : Channel} {changes argsOk : Bool} {i : SlotNo} {r : Record}
    (h : s.named ch changes argsOk = .ok (i, r)) : s.record i = some r := by
  unfold State.named at h
  dsimp only at h
  split at h
  · split at h
    · cases h
    · split at h
      · cases h
      · next hr =>
        split at h
        · cases h
        · split at h
          · cases h
          · simp only [Except.ok.injEq, Prod.mk.injEq] at h
            obtain ⟨rfl, rfl⟩ := h
            exact hr
  · cases h

/-- Settles O12: the record check, the record's state, and the state that retirement settles in. -/
theorem retireEffect : Obligations.RetireEffect := by
  unfold Obligations.RetireEffect
  intro ch opts s ready s0 dismiss
  refine (command_ready ready bodyRetire opts).trans (congrArg _ ((withRecord_named ..).trans ?_))
  cases hn : (s.served ch 0x11 opts).named ch true true with
  | error code => rfl
  | ok ir =>
    obtain ⟨i, r⟩ := ir
    have hr := State.record_of_named hn
    dsimp only
    cases hs : r.state
    case retiring | retired => exact State.fail_answer _ ch (by decide)
    all_goals
      have code := State.stateCode_enterRetirement hr (by simp [hs]) .host dismiss
      rw [State.served_holds] at code
      exact (State.complete_ok ..).trans (by rw [code]; rfl)

/-! ### SUSPEND and RESUME -/

/-- Settles O13: each command by the record check and the record's state. -/
theorem suspendResumeEffect : Obligations.SuspendResumeEffect := by
  unfold Obligations.SuspendResumeEffect
  refine ⟨fun ch opts s ready => ?_, fun ch opts s ready => ?_⟩
  · refine (command_ready ready bodySuspend opts).trans (congrArg _ ((withRecord_named ..).trans ?_))
    cases (s.served ch 0x12 opts).named ch true true with
    | error code => rfl
    | ok ir => cases hs : ir.2.state <;> simp [hs]
  · refine (command_ready ready bodyResume opts).trans (congrArg _ ((withRecord_named ..).trans ?_))
    cases (s.served ch 0x13 opts).named ch true true with
    | error code => rfl
    | ok ir => cases hs : ir.2.state <;> simp [hs]

/-! ### SET CLASS -/

theorem classOf_isSome (n : Nat) : (classOf n).isSome = decide (n ≤ 1) := by
  match n with
  | 0 | 1 => rfl
  | n + 2 => simp [classOf]

theorem classOf_getD {n : Nat} (h : n ≤ 1) : (classOf n).getD .fast = if n = 0 then .fast else .slow := by
  match n, h with
  | 0, _ | 1, _ => rfl

theorem State.argsOk_of_named {ch : Channel} {changes argsOk : Bool} {i : SlotNo} {r : Record}
    (h : s.named ch changes argsOk = .ok (i, r)) : argsOk = true := by
  cases argsOk
  · unfold State.named at h
    dsimp only at h
    split at h <;> simp at h
  · rfl

/-- The skip count after a change of class, by the record's state and the new class (R30). -/
theorem classSkip_eq (slowDivisor : Nat) (state : RecState) (n : Nat) (skip : Option Nat) :
    classSkip slowDivisor state (if n = 0 then .fast else .slow) skip =
      if state = .active ∨ state = .suspended then some (if n = 0 then 0 else slowDivisor - 1) else skip := by
  by_cases h : n = 0 <;> cases state <;> simp [classSkip, h]

/-- Settles O14: the record check, the record's state, and whether the class is new. -/
theorem setClassEffect : Obligations.SetClassEffect := by
  unfold Obligations.SetClassEffect
  intro ch opts s ready s0 w2 cls
  refine (command_ready ready bodySetClass opts).trans (congrArg _ ((withRecord_named ..).trans ?_))
  rw [State.served_arg, classOf_isSome]
  cases hn : (s.served ch 0x14 opts).named ch true (decide ((s.arg ch 1).toNat ≤ 1)) with
  | error code => rfl
  | ok ir =>
    have hw : (s.arg ch 1).toNat ≤ 1 := by simpa using State.argsOk_of_named hn
    dsimp only
    rw [classOf_getD hw, State.served_poll, ← classSkip_eq]
    by_cases hc : cls = ir.2.cls <;> cases ir.2.state <;> simp [hc, cls, w2, s0]

/-! ### TRANSFER -/

theorem ownerOf_isSome (n : Nat) : (ownerOf n).isSome = decide (n ≤ 1) := by
  match n with
  | 0 | 1 => rfl
  | n + 2 => simp [ownerOf]

theorem ownerOf_getD {n : Nat} (h : n ≤ 1) : (ownerOf n).getD .ch0 = if n = 0 then .ch0 else .ch1 := by
  match n, h with
  | 0, _ | 1, _ => rfl

/-- A record given to the other channel: OWNER joins its reasons, and its slot moves between the Change Lists (R31). -/
theorem State.transferRecord_eq {i : SlotNo} {r : Record} {owner : Channel} (h : owner ≠ r.owner) :
    s.transferRecord i r owner =
      ((s.setRecord i (some { r with owner := owner, reasons := r.reasons ||| 0x080 })).setPort r.owner
        { s.port r.owner with changeList := (s.port r.owner).changeList.erase i }).setPort owner
          { s.port owner with changeList := (s.port owner).changeList ++ [i] } := by
  have hr : ({ r.addReason .owner with owner := owner } : Record) =
      { r with owner := owner, reasons := r.reasons ||| 0x080 } := by
    simp [Record.addReason, Reason.bit]
  rw [State.transferRecord, hr]
  cases ho : r.owner <;> cases owner <;> first | exact absurd ho.symm h | rfl

/-- Settles O15: the channel's check is passed; then the record check, the record's state, and whether the owner is new. -/
theorem transferEffect : Obligations.TransferEffect := by
  unfold Obligations.TransferEffect
  intro opts s ready s0 w2 owner
  refine (command_ready ready bodyTransfer opts).trans (congrArg _ ((withRecord_named ..).trans ?_))
  rw [State.served_arg, ownerOf_isSome]
  cases hn : (s.served .ch0 0x15 opts).named .ch0 true (decide ((s.arg .ch0 1).toNat ≤ 1)) with
  | error code => rfl
  | ok ir =>
    obtain ⟨i, r⟩ := ir
    have hw : (s.arg .ch0 1).toNat ≤ 1 := by simpa using State.argsOk_of_named hn
    dsimp only
    rw [ownerOf_getD hw]
    split
    · next hs =>
      rw [if_pos hs]
      exact State.fail_answer _ .ch0 (by decide)
    all_goals
      next hs =>
      rw [if_neg (show r.state ≠ .retired by simp [hs])]
      by_cases ho : owner = r.owner
      · exact (if_pos ho).trans ((State.complete_ok ..).trans (if_pos ho).symm)
      · exact (if_neg ho).trans ((State.complete_ok ..).trans
          ((congrArg (State.answer · .ch0 .ok []) (State.transferRecord_eq ho)).trans (if_neg ho).symm))

/-! ### CLEAR HOLD -/

theorem State.endHold_eq {i : SlotNo} {r : Record} (h : s.record i = some r) :
    s.endHold i = (s.setRecord i (some { r with hold := none })).post i .holdEnded := by
  rw [State.endHold, State.updRecord_some s _ h]

/-- Settles O22: the record check, the record's state, and whether a hold is present. -/
theorem clearHoldEffect : Obligations.ClearHoldEffect := by
  unfold Obligations.ClearHoldEffect
  intro ch opts s ready s0
  refine (command_ready ready bodyClearHold opts).trans (congrArg _ ((withRecord_named ..).trans ?_))
  cases hn : (s.served ch 0x40 opts).named ch true true with
  | error code => rfl
  | ok ir =>
    obtain ⟨i, r⟩ := ir
    have ended := State.endHold_eq (State.record_of_named hn)
    simp only [s0, ← ended]
    rw [holdReading_eq]
    cases r.hold <;> cases r.state <;> simp [RecState.isMember, yesNo, wordOf]

/-! ### FIND ADDRESS and FIND IDENTITY -/

theorem inRange_iff (w : Word) (low high : Nat) : inRange w low high = true ↔ low ≤ w.toNat ∧ w.toNat ≤ high := by
  simp [inRange]

theorem loByte_ofNat (w : Word) : loByte w = BitVec.ofNat 8 w.toNat := by
  apply BitVec.eq_of_toNat_eq
  simp [loByte]

/-- FIND ADDRESS by its argument and what the Address Index maps it to (R34). -/
theorem exec_findAddress_ready {ch : Channel} (h : s.Ready ch 0x18) (opts : Byte) :
    exec (.findAddress ch opts) s = .next
      (if 1 ≤ (s.arg ch 0).toNat ∧ (s.arg ch 0).toNat ≤ 254 then
        match s.lookup (BitVec.ofNat 8 (s.arg ch 0).toNat) with
        | some i => (s.served ch 0x18 opts).answer ch .ok (s.foundWords i)
        | none => (s.served ch 0x18 opts).answer ch .notFound []
      else (s.served ch 0x18 opts).answer ch .badArgument []) := by
  refine (command_ready h bodyFindAddress opts).trans (congrArg _ ?_)
  simp only [bodyFindAddress, State.served_arg, inRange_iff, loByte_ofNat, State.served_lookup]
  cases s.lookup (BitVec.ofNat 8 (s.arg ch 0).toNat) <;> simp

/-- FIND IDENTITY by its arguments, who holds the buffer, and the search for the identity in it (R35). -/
theorem exec_findIdentity_ready {ch : Channel} (h : s.Ready ch 0x19) (opts : Byte) :
    exec (.findIdentity ch opts) s = .next
      (match bufOf (s.arg ch 1) with
        | none => (s.served ch 0x19 opts).answer ch .badArgument []
        | some b =>
          if ¬ (1 ≤ (s.arg ch 0).toNat ∧ (s.arg ch 0).toNat ≤ 16) then
            (s.served ch 0x19 opts).answer ch .badArgument []
          else if ¬ s.Holds ch b then (s.served ch 0x19 opts).answer ch .notHeld []
          else
            match s.findIdentity (s.bufferBytes b (s.arg ch 0).toNat) with
            | some i => (s.served ch 0x19 opts).answer ch .ok (s.foundWords i)
            | none => (s.served ch 0x19 opts).answer ch .notFound []) := by
  refine (command_ready h bodyFindIdentity opts).trans (congrArg _ ?_)
  cases hb : bufOf (s.arg ch 1) with
  | none => simp [bodyFindIdentity, hb]
  | some b =>
    simp only [bodyFindIdentity, State.served_arg, hb, inRange_iff, State.served_isHeld, s.isHeld_iff, State.served_bufferBytes,
      State.served_findIdentity]
    cases s.findIdentity (s.bufferBytes b (s.arg ch 0).toNat) <;>
      by_cases hr : 1 ≤ (s.arg ch 0).toNat ∧ (s.arg ch 0).toNat ≤ 16 <;> by_cases hh : s.Holds ch b <;> simp [hr, hh]

/-- FIND IDENTITY searches for the lowest slot whose record counts and holds the identity (R11, log entry 20). -/
theorem State.findIdentity_eq (s : State) (identity : List Byte) : s.findIdentity identity =
    allSlots.find? fun i => s.recordIs i fun r => r.state.counts && r.identity == identity := by
  unfold State.findIdentity State.recordIs
  congr 1
  funext i
  cases s.record i <;> rfl

/-- Settles O17: each search by its argument checks and what it finds. -/
theorem findResults : Obligations.FindResults := by
  unfold Obligations.FindResults
  refine ⟨fun ch opts s ready => ?_, fun ch opts s ready => ?_⟩
  · intro s0 address
    refine ⟨fun hbad => ?_, fun hgood => ⟨fun hl => ?_, fun i r hl hr => ?_⟩⟩ <;> rw [exec_findAddress_ready ready]
    · rw [if_neg hbad]
    · rw [if_pos hgood, hl]
    · rw [if_pos hgood, hl, ← s.foundWords_of_record hr]
  · intro s0 size
    refine ⟨fun hbad => ?_, fun b hsize hb => ⟨fun hnot => ?_, fun held hno => ?_, fun i r held hr hi hlow => ?_⟩⟩ <;>
      rw [exec_findIdentity_ready ready]
    · cases hb : bufOf (s.arg ch 1) with
      | none => rfl
      | some b =>
        have hw : (s.arg ch 1).toNat < 32 := by simpa [bufOf_isSome] using congrArg Option.isSome hb
        exact congrArg _ (if_pos fun hgood => hbad ⟨hgood.1, hgood.2, hw⟩)
    · simp only [hb]
      rw [if_neg (not_not.2 hsize), if_pos hnot]
    · simp only [hb]
      rw [if_neg (not_not.2 hsize), if_neg (not_not.2 held), s.findIdentity_eq, allSlots_find?_eq_none.2 hno]
    · simp only [hb]
      rw [if_neg (not_not.2 hsize), if_neg (not_not.2 held), s.findIdentity_eq,
        allSlots_find?_eq_some.2 ⟨hi, hlow⟩, ← s.foundWords_of_record hr]

end Sys2Proof.Machine
end

section
/-! The settings' commands and the line's: SET POLLING (R53), CONFIGURE LINE (R76), SET HEALTH (R111), START LINE (R105) and
STOP LINE (R106 to R110). -/

namespace Sys2Proof.Machine

variable {s : State}

/-! ### SET POLLING -/

/-- The results of SET POLLING as the numbers R199 gives them. -/
theorem State.pollingWords_eq (s : State) : s.pollingWords =
    [BitVec.ofNat 16 s.poll.slowDivisor, BitVec.ofNat 16 s.poll.ring.length, BitVec.ofNat 16 s.poll.cursor,
      s.poll.passCount, BitVec.ofNat 16 s.poll.countdown,
      BitVec.ofNat 16 ((if s.poll.invitePending then 1 else 0) + if s.poll.idle.isSome then 2 else 0)] := by
  unfold State.pollingWords
  cases s.poll.invitePending <;> cases s.poll.idle.isSome <;> rfl

theorem State.option1_served (s : State) (ch c : Channel) (code opts : Byte) :
    (s.served ch code opts).option1 c = ((s.served ch code opts).port c).opts.getLsbD 0 := rfl

/-- SET POLLING by KEEP and the range of its argument (R53). -/
theorem exec_setPolling_ready (h : s.Ready .ch0 0x20) (opts : Byte) :
    let s0 := s.served .ch0 0x20 opts
    exec (.setPolling .ch0 opts) s = .next
      (if s0.option1 .ch0 = true then s0.answer .ch0 .ok s0.pollingWords
      else if 2 ≤ (s.arg .ch0 0).toNat ∧ (s.arg .ch0 0).toNat ≤ 16 then
        (s0.setDivisor (s.arg .ch0 0).toNat).answer .ch0 .ok (s0.setDivisor (s.arg .ch0 0).toNat).pollingWords
      else s0.answer .ch0 .badArgument []) := by
  intro s0
  refine (command_ready h bodySetPolling opts).trans (congrArg _ ?_)
  simp [bodySetPolling, onChannel0, inRange_iff, s0]

/-- A new divisor lowers the skip counts of ACTIVE and SUSPENDED records (R53). -/
theorem State.record_setDivisor {d : Nat} (h : d ≠ s.poll.slowDivisor) (i : SlotNo) :
    (s.setDivisor d).record i = (s.record i).map fun r =>
      if r.state = .active ∨ r.state = .suspended then { r with skip := r.skip.map fun k => min k (d - 1) } else r := by
  simp only [State.setDivisor, if_neg h, State.record, State.slot, Fin.getElem_fin, Vector.getElem_map]
  congr 1
  funext r
  cases hs : r.state <;> simp [Record.lowerSkip, hs]

theorem State.gen_setDivisor (s : State) (d : Nat) (i : SlotNo) : ((s.setDivisor d).slot i).gen = (s.slot i).gen := by
  unfold State.setDivisor
  split
  · rfl
  · simp [State.slot, State.updPoll]

theorem State.setDivisor_frame {d : Nat} (h : d ≠ s.poll.slowDivisor) : s.setDivisor d = { s with
    poll := { s.poll with slowDivisor := d }
    registry := { s.registry with slots := (s.setDivisor d).registry.slots } } := by
  simp only [State.setDivisor, if_neg h, State.updPoll]

@[simp] theorem State.answer_slot (s : State) (ch : Channel) (code : ResultCode) (ws : List Word) (i : SlotNo) :
    (s.answer ch code ws).slot i = s.slot i := by simp [State.answer]

@[simp] theorem State.answer_record (s : State) (ch : Channel) (code : ResultCode) (ws : List Word) (i : SlotNo) :
    (s.answer ch code ws).record i = s.record i := by simp [State.answer]

@[simp] theorem State.answer_registry (s : State) (ch : Channel) (code : ResultCode) (ws : List Word) :
    (s.answer ch code ws).registry = s.registry := by simp [State.answer]

/-- Settles O19: KEEP, the argument's range, and whether the divisor is new. -/
theorem setPollingEffect : Obligations.SetPollingEffect := by
  unfold Obligations.SetPollingEffect
  intro opts s ready s0 d results
  have words : s0.pollingWords = results s.poll.slowDivisor := by rw [State.pollingWords_eq, State.served_poll]
  refine ⟨fun keep => ?_, fun keep bad => ?_, fun keep good same => ?_, fun keep good new => ?_⟩
  · rw [exec_setPolling_ready ready, if_pos keep]
    exact congrArg _ (congrArg _ words)
  · rw [exec_setPolling_ready ready, if_neg (ne_true_of_eq_false keep), if_neg bad]
  · have unchanged : s0.setDivisor d = s0 := if_pos (by rw [same]; exact congrArg _ (s.served_poll ..).symm)
    rw [exec_setPolling_ready ready, if_neg (ne_true_of_eq_false keep), if_pos good]
    exact congrArg _ ((congrArg (fun u : State => u.answer .ch0 .ok u.pollingWords) unchanged).trans
      (by rw [words, same]))
  · have new0 : d ≠ s0.poll.slowDivisor := by rwa [State.served_poll]
    have answered : exec (.setPolling .ch0 opts) s =
        .next ((s0.setDivisor d).answer .ch0 .ok (s0.setDivisor d).pollingWords) := by
      rw [exec_setPolling_ready ready, if_neg (ne_true_of_eq_false keep), if_pos good]
    refine ⟨_, answered, ?_, fun i => ⟨?_, ?_⟩⟩
    · rw [State.answer_registry, State.pollingWords_eq]
      conv_lhs => rw [State.setDivisor_frame new0]
      simp only [s0, State.served_poll, State.served_registry]
      rfl
    · rw [State.answer_slot, State.gen_setDivisor, State.served_slot]
    · rw [State.answer_record, State.record_setDivisor new0, State.served_record]

/-! ### CONFIGURE LINE and SET HEALTH -/

theorem clockOf_eq (n : Nat) : clockOf n =
    if n ≤ 1 then some (if n = 0 then .internal else .external) else none := by
  match n with
  | 0 | 1 => rfl
  | n + 2 => simp [clockOf]

theorem configWords_eq (c : LineConfig) : configWords c =
    [BitVec.ofNat 16 c.divisor, if c.clock = .internal then 0 else 1, BitVec.ofNat 16 c.replyTimeout,
      BitVec.ofNat 16 c.joinWindow, BitVec.ofNat 16 c.guardTime] := by
  unfold configWords
  cases c.clock <;> rfl

theorem LineState.stopped_iff (l : LineState) : l.stopped = true ↔ l = .off ∨ l = .fault := by
  cases l <;> simp [LineState.stopped]

/-- The arguments of CONFIGURE LINE, by their ranges (R75). -/
theorem State.configArgs_eq (s : State) (ch : Channel) : s.configArgs ch =
    if (2 ≤ (s.arg ch 0).toNat ∧ (s.arg ch 0).toNat ≤ 4095) ∧ (s.arg ch 1).toNat ≤ 1
        ∧ (1 ≤ (s.arg ch 2).toNat ∧ (s.arg ch 2).toNat ≤ 255) ∧ (1 ≤ (s.arg ch 3).toNat ∧ (s.arg ch 3).toNat ≤ 255)
        ∧ (8 ≤ (s.arg ch 4).toNat ∧ (s.arg ch 4).toNat ≤ 255) then
      some { divisor := (s.arg ch 0).toNat, clock := if (s.arg ch 1).toNat = 0 then .internal else .external
             replyTimeout := (s.arg ch 2).toNat, joinWindow := (s.arg ch 3).toNat, guardTime := (s.arg ch 4).toNat }
    else none := by
  unfold State.configArgs
  rw [clockOf_eq]
  by_cases hc : (s.arg ch 1).toNat ≤ 1
  · simp [hc, inRange, and_assoc]
  · simp [hc]

/-- CONFIGURE LINE on Channel 0 by KEEP, its arguments and the line state (R76). -/
theorem bodyConfigureLine_ch0 (s : State) : bodyConfigureLine .ch0 s =
    if s.option1 .ch0 = true then s.answer .ch0 .ok (configWords s.trunk.config)
    else
      match s.configArgs .ch0 with
      | none => s.answer .ch0 .badArgument []
      | some c =>
        if s.trunk.line = .off ∨ s.trunk.line = .fault then
          State.answer { s with trunk := { s.trunk with config := c } } .ch0 .ok (configWords c)
        else s.answer .ch0 .lineActive [] := by
  simp only [bodyConfigureLine, onChannel0, State.complete_ok, ← LineState.stopped_iff]
  cases s.configArgs .ch0 <;> simp [State.updTrunk]

/-- SET HEALTH on Channel 0 by KEEP and its arguments (R111). -/
theorem bodySetHealth_ch0 (s : State) : bodySetHealth .ch0 s =
    let w := fun n : Fin 6 => (s.arg .ch0 n).toNat
    let h : Health := { silenceThreshold := w 0, lostLimit := w 1, retryLimit := w 2, faultThreshold := w 3 }
    if s.option1 .ch0 = true then s.answer .ch0 .ok (healthWords s.trunk.health)
    else if (1 ≤ w 0 ∧ w 0 ≤ 15) ∧ w 1 ≤ 255 ∧ (1 ≤ w 2 ∧ w 2 ≤ 15) ∧ (1 ≤ w 3 ∧ w 3 ≤ 255) then
      State.answer { s with trunk := { s.trunk with health := h } } .ch0 .ok (healthWords h)
    else s.answer .ch0 .badArgument [] := by
  simp [bodySetHealth, onChannel0, State.updTrunk, inRange_iff, and_assoc]

/-- Settles O20: KEEP, the ranges of the arguments, and for CONFIGURE LINE the line state. -/
theorem lineAndHealthSettings : Obligations.LineAndHealthSettings := by
  unfold Obligations.LineAndHealthSettings
  refine ⟨fun opts s ready => ?_, fun opts s ready => ?_⟩
  · intro s0 w results c good
    refine (command_ready ready bodyConfigureLine opts).trans (congrArg _ ?_)
    rw [bodyConfigureLine_ch0, State.configArgs_eq]
    simp only [State.served_arg, State.served_trunk, configWords_eq]
    by_cases hg : good
    · rw [if_pos hg, if_neg (not_not.2 hg)]
    · rw [if_neg hg, if_pos hg]
  · refine (command_ready ready bodySetHealth opts).trans (congrArg _ ?_)
    rw [bodySetHealth_ch0]
    simp only [State.served_arg, State.served_trunk]
    rfl

/-! ### START LINE -/

/-- Settles O23: the line's state; then the choice, as entering IDLE makes it (R81, R82). -/
theorem startLineEffect : Obligations.StartLineEffect := by
  unfold Obligations.StartLineEffect
  intro opts s ready s0
  refine (command_ready ready bodyStartLine opts).trans (congrArg _ ?_)
  simp only [bodyStartLine, onChannel0, State.served_trunk, LineState.stopped_iff, State.complete_ok]
  split
  · rfl
  · exact State.fail_answer _ .ch0 (by decide)

/-! ### STOP LINE -/

/-- The end of a drain is the answer to its channel's command (R106, R109, R110). -/
theorem State.endDrain_eq (s : State) (ended : Nat) : s.endDrain ended =
    match s.trunk.drain with
    | none => s
    | some d => State.answer { s with trunk := { s.trunk with drain := none } } d.channel .ok
        [wordOf d.takenIn.code, wordOf ended] := by
  unfold State.endDrain
  cases s.trunk.drain with
  | none => rfl
  | some d => exact State.complete_ok ..

theorem State.trunk_dropReception_drain (s : State) : s.dropReception.trunk.drain = s.trunk.drain := by
  rcases s.dropReception_eq with e | ⟨x, b, -, -, -, e⟩ <;> rw [e]

@[simp] theorem State.post_trunk (i : SlotNo) (why : Reason) : (s.post i why).trunk = s.trunk :=
  (s.post_frame i why).2.2.1

@[simp] theorem State.freeReserved_trunk (x : Exchange) : (s.freeReserved x).trunk = s.trunk := by
  unfold State.freeReserved; split <;> rfl

@[simp] theorem State.freeCarried_trunk (i : SlotNo) (x : Exchange) : (s.freeCarried i x).trunk = s.trunk := by
  unfold State.freeCarried
  split
  · split
    · simp
    · rfl
  · rfl

@[simp] theorem State.settleRetiring_trunk (i : SlotNo) : (s.settleRetiring i).trunk = s.trunk :=
  (s.settleRetiring_frame i).2.2.1

theorem State.abortExchange_drain (s : State) : s.abortExchange.trunk.drain = s.trunk.drain := by
  have h := s.trunk_dropReception_drain
  unfold State.abortExchange
  split
  · dsimp only
    split
    · split <;> simp [State.releaseTarget, h]
    · simp [State.releaseTarget, h]
  · rfl

/-- Settles O24: the two options, and then the line state the command is taken in. -/
theorem stopLineEffect : Obligations.StopLineEffect := by
  unfold Obligations.StopLineEffect
  intro ch opts s ready s0 was off drained done
  refine (command_ready ready bodyStopLine opts).trans (congrArg _ ?_)
  have line : s0.trunk = s.trunk := s.served_trunk ..
  have aborted : s0.abortExchange.toOff.trunk.drain = s.trunk.drain :=
    s0.abortExchange_drain.trans (congrArg Trunk.drain line)
  have offDrain : s0.toOff.trunk.drain = s.trunk.drain := (congrArg Trunk.drain line : s0.trunk.drain = _)
  have hwas : s0.trunk.line = was := congrArg Trunk.line line
  change bodyStopLine ch s0 = _
  unfold bodyStopLine
  cases s0.option1 ch <;> cases s0.option2 ch
  case false.false | true.true => exact (State.fail_answer _ ch (by decide)).trans (if_pos rfl).symm
  case true.false =>
    refine Eq.trans ?_ ((if_neg (by simp)).trans (if_pos rfl)).symm
    simp only [State.stopAbort, hwas]
    clear_value was
    cases was
    case off | idle | fault => exact State.complete_ok ..
    case sending | awaiting =>
      dsimp only
      rw [State.complete_ok, State.endDrain_eq, aborted]
      rfl
    case guard =>
      dsimp only
      rw [State.complete_ok, State.endDrain_eq, offDrain]
      rfl
  case false.true =>
    refine Eq.trans ?_ ((if_neg (by simp)).trans (if_neg (by simp))).symm
    simp only [State.stopDrain, hwas]
    clear_value was
    cases hd : s.trunk.drain with
    | some d =>
      rw [if_pos (by rw [line, hd]; rfl), if_pos (by simp)]
      exact State.fail_answer _ ch (by decide)
    | none =>
      rw [if_neg (by rw [line, hd]; simp), if_neg (by simp)]
      cases was
      case off | idle | fault | guard => exact State.complete_ok ..
      case sending | awaiting =>
        rw [← line]
        rfl

end Sys2Proof.Machine
end

section
/-! ENROL (R26), and the buffer commands ALLOCATE, TAKE MESSAGE, SEND and SET RESERVE (R162 to R167). -/

namespace Sys2Proof.Machine

variable {s : State}

/-! ### ENROL -/

theorem State.candidateKnown_iff (s : State) (identity : List Byte) :
    s.candidateKnown identity = true ↔ ∃ c ∈ s.adm.candidates, c.identity = identity := by
  simp [State.candidateKnown]

/-- Removing an identity that no candidate has changes nothing (R141). -/
theorem State.removeCandidate_unknown {identity : List Byte} (h : ¬ ∃ c ∈ s.adm.candidates, c.identity = identity) :
    s.removeCandidate identity = s := by
  have all : (s.adm.candidates.filter fun c => c.identity ≠ identity) = s.adm.candidates :=
    List.filter_eq_self.2 fun c hc => by simpa using fun e => h ⟨c, hc, e⟩
  rw [State.removeCandidate, State.updAdm, all]

theorem State.not_isHeld_iff (s : State) (ch : Channel) (b : BufNo) : (!s.isHeld ch b) = true ↔ ¬ s.Holds ch b := by
  simp [State.isHeld]

/-- ENROL's record stands in the slot at the head of the Free Slot List and at the Ring's tail; a candidate that leaves
wakes the Trunk Engine while an invitation is pending (R26, R83). -/
theorem State.enrol_eq (s : State) (ch : Channel) (address : Byte) (identity : List Byte) (cls : Class)
    (owner : Channel) : s.enrol ch address identity cls owner =
      match s.registry.freeSlots with
      | [] => s.answer ch .noSlot []
      | i :: rest =>
        let s1 := { s with
          registry := { s.registry with
            slots := s.registry.slots.set i
              { gen := (s.slot i).gen + 1, record := some (Record.fresh .active address identity cls owner) }
            addressIndex := s.registry.addressIndex.set address.toFin (some i)
            freeSlots := rest }
          poll := { s.poll with ring := s.poll.ring ++ [i] }
          adm := { s.adm with candidates := s.adm.candidates.filter fun c => c.identity ≠ identity } }
        (if s.poll.invitePending = true ∧ ∃ c ∈ s.adm.candidates, c.identity = identity then s1.wake else s1).answer
          ch .ok [((s.slot i).gen + 1) ++ BitVec.ofNat 8 i.val] := by
  unfold State.enrol
  rcases State.createRecord_cases s (Record.fresh .active address identity cls owner) with ⟨hf, hc⟩ | ⟨i, rest, hf, hc⟩
  · rw [hc, hf]
    exact State.fail_answer _ ch (by decide)
  · rw [hc, hf]
    have word : handleWord (State.handle { s with registry := { s.registry with
        slots := s.registry.slots.set i
          { gen := (s.slot i).gen + 1, record := some (Record.fresh .active address identity cls owner) }
        addressIndex := s.registry.addressIndex.set address.toFin (some i)
        freeSlots := rest } } i) = ((s.slot i).gen + 1) ++ BitVec.ofNat 8 i.val := by
      simp [handleWord, State.handle, State.slot, ofBytes]
    refine (State.complete_ok ..).trans (congrArg₂ (State.answer · ch .ok [·]) ?_ word)
    by_cases hk : ∃ c ∈ s.adm.candidates, c.identity = identity
    · refine (if_pos ((State.candidateKnown_iff _ _).2 hk)).trans ?_
      by_cases hi : s.poll.invitePending = true
      · exact (if_pos hi).trans (if_pos ⟨hi, hk⟩).symm
      · exact (if_neg hi).trans (if_neg fun h => hi h.1).symm
    · refine ((if_neg (mt (State.candidateKnown_iff _ _).1 hk)).trans ?_).trans (if_neg fun h => hk h.2).symm
      exact (State.removeCandidate_unknown (s := State.appendRing { s with registry := _ } i) hk).symm

/-- Settles O11: the argument checks in their order, and then the record at the head of the Free Slot List. -/
theorem enrolEffect : Obligations.EnrolEffect := by
  unfold Obligations.EnrolEffect
  intro opts s ready s0 address size
  refine (command_ready ready bodyEnrol opts).trans (congrArg _ ?_)
  simp only [bodyEnrol, onChannel0, State.served_arg]
  cases classOwnerOf (s.arg .ch0 1) with
  | none => exact State.fail_answer _ .ch0 (by decide)
  | some co =>
    cases bufOf (s.arg .ch0 3) with
    | none => exact State.fail_answer _ .ch0 (by decide)
    | some b =>
      simp only [inRange_iff, Bool.and_eq_true, loByte_ofNat, State.served_isHeld, State.served_bufferBytes,
        State.served_lookup, State.served_findIdentity, State.enrol_eq]
      by_cases hr : 1 ≤ address ∧ address ≤ 254 ∧ 1 ≤ size ∧ size ≤ 16
      · rw [if_pos (by tauto), if_neg (not_not.2 hr)]
        by_cases hh : s.Holds .ch0 b
        · rw [if_neg (mt (s.not_isHeld_iff _ b).1 (not_not.2 hh)), if_neg (not_not.2 hh)]
          cases s.lookup (BitVec.ofNat 8 address) with
          | some j => exact State.fail_answer _ .ch0 (by decide)
          | none =>
            cases s.findIdentity (s.bufferBytes b size) with
            | some j => exact State.fail_answer _ .ch0 (by decide)
            | none => rfl
        · rw [if_pos ((s.not_isHeld_iff _ b).2 hh), if_pos hh]
          exact State.fail_answer _ .ch0 (by decide)
      · rw [if_neg (by tauto), if_pos hr]
        exact State.fail_answer _ .ch0 (by decide)

/-! ### ALLOCATE and TAKE MESSAGE -/

/-- Settles O30: the free buffer list against the floor, and the delivery queue with its head's place. -/
theorem buffersHandedToTheHost : Obligations.BuffersHandedToTheHost := by
  unfold Obligations.BuffersHandedToTheHost
  refine ⟨fun ch opts s ready => ?_, fun ch opts s ready => ⟨fun empty => ?_, fun b rest h a hq hp => ?_⟩⟩
  · refine (command_ready ready bodyAllocate opts).trans (congrArg _ ?_)
    simp only [bodyAllocate, State.served_pool]
    cases hf : s.pool.free with
    | nil => simp
    | cons b rest =>
      dsimp only
      split
      · exact State.fail_answer _ ch (by decide)
      · refine (State.complete_ok ..).trans ?_
        cases ch <;> rfl
  · refine (command_ready ready bodyTakeMessage opts).trans (congrArg _ ?_)
    simp [bodyTakeMessage, empty]
  · refine (command_ready ready bodyTakeMessage opts).trans (congrArg _ ?_)
    simp only [bodyTakeMessage, State.served_port_same, Port.atTake_deliveryQueue, hq, State.served_buffer, hp, sourceWords]
    refine (State.complete_ok ..).trans ?_
    cases ch <;> rfl

/-! ### SEND -/

theorem State.named_true_of_named {ch : Channel} {changes argsOk : Bool} {ir : SlotNo × Record}
    (h : s.named ch changes true = .ok ir) (ha : argsOk = true) : s.named ch changes argsOk = .ok ir := ha ▸ h

/-- Settles O32: the record check, and the buffer, the state and the queue in this order. -/
theorem sendEffect : Obligations.SendEffect := by
  unfold Obligations.SendEffect
  intro ch opts s ready s0 size
  have args : ((bufOf (s0.arg ch 1)).isSome && inRange (s0.arg ch 2) 0 120) =
      decide ((s.arg ch 1).toNat < 32 ∧ size ≤ 120) := by
    rw [State.served_arg, State.served_arg, bufOf_isSome]
    simp [inRange, size]
  refine ⟨fun code hcode => ?_, fun i r b hn hb hsize => ?_⟩
  · refine (command_ready ready bodySend opts).trans (congrArg _ ((withRecord_named ..).trans ?_))
    rw [args, hcode]
  · have hn' : s0.named ch true (decide ((s.arg ch 1).toNat < 32 ∧ size ≤ 120)) = .ok (i, r) := by
      have hw : (s.arg ch 1).toNat < 32 := by simpa [bufOf_isSome] using congrArg Option.isSome hb
      exact State.named_true_of_named hn (decide_eq_true ⟨hw, hsize⟩)
    refine (command_ready ready bodySend opts).trans (congrArg _ ((withRecord_named ..).trans ?_))
    rw [args, hn']
    simp only [State.served_arg, hb, State.served_isHeld]
    by_cases hh : s.Holds ch b
    · rw [if_neg (mt (s.not_isHeld_iff _ b).1 (not_not.2 hh)), if_neg (not_not.2 hh)]
      cases hm : r.state.isMember
      · exact State.fail_answer _ ch (by decide)
      · refine (if_neg (by decide)).trans (Eq.trans ?_ (if_neg (by decide)).symm)
        split
        · exact State.fail_answer _ ch (by decide)
        · refine (State.complete_ok ..).trans ?_
          cases ch <;> rfl
    · rw [if_pos ((s.not_isHeld_iff _ b).2 hh), if_pos hh]
      exact State.fail_answer _ ch (by decide)

/-! ### SET RESERVE -/

/-- The buffers in a kind of place, counted over the buffer numbers. -/
theorem State.countPlaces_eq (s : State) (p : Place → Bool) :
    s.countPlaces p = (allBuffers.filter fun b => p (s.buffer b).place).length := by
  have hl : s.pool.buffers.toList = allBuffers.map s.buffer := by
    apply List.ext_getElem
    · simp [allBuffers]
    · intro k h1 h2
      simp [allBuffers, State.buffer]
  rw [State.countPlaces, hl, List.countP_map, List.countP_eq_length_filter]
  rfl

theorem countBuffers_lt (p : BufNo → Bool) : (allBuffers.filter p).length < 2 ^ 8 := by
  have := List.length_filter_le p allBuffers
  simp [allBuffers] at this ⊢
  omega

theorem length_lt_of_nodup {l : List BufNo} (h : l.Nodup) : l.length < 2 ^ 8 := by
  have := h.length_le_card
  simp at this
  omega

/-- The results of SET RESERVE, where no delivery queue holds a buffer twice (R167). -/
theorem State.reserveWords_eq (h : (s.port0.deliveryQueue ++ s.port1.deliveryQueue).Nodup) : s.reserveWords =
    let count := fun p : Place → Bool => (allBuffers.filter fun b => p (s.buffer b).place).length
    [BitVec.ofNat 16 s.pool.reserveFloor, BitVec.ofNat 16 s.pool.free.length,
      BitVec.ofNat 16 (count (fun p => decide (p = .held .ch0)) + 256 * count (fun p => decide (p = .held .ch1))),
      BitVec.ofNat 16 (count Place.isQueued), BitVec.ofNat 16 (count fun p => decide (p = .reserved)),
      BitVec.ofNat 16 (s.port0.deliveryQueue.length + 256 * s.port1.deliveryQueue.length)] := by
  obtain ⟨h0, h1, -⟩ := List.nodup_append.1 h
  simp only [State.reserveWords, State.countPlaces_eq]
  rw [wordOf2_of_lt (length_lt_of_nodup h0) (length_lt_of_nodup h1), wordOf2_of_lt (countBuffers_lt _) (countBuffers_lt _)]
  rfl

/-- Settles O33: KEEP, and the range of the floor. -/
theorem setReserveEffect : Obligations.SetReserveEffect := by
  unfold Obligations.SetReserveEffect
  intro opts s ready hok s0 floor count results
  obtain ⟨-, -, -, hq, -⟩ := hok
  have hq0 : (s0.port0.deliveryQueue ++ s0.port1.deliveryQueue).Nodup := by
    have := (s.port .ch0).atTake_deliveryQueue 0x64 opts
    exact (congrArg (fun l => (l ++ s.port1.deliveryQueue).Nodup) this).mpr hq
  have queue : s0.port0.deliveryQueue = s.port0.deliveryQueue := (s.port .ch0).atTake_deliveryQueue 0x64 opts
  refine (command_ready ready bodySetReserve opts).trans (congrArg _ ?_)
  simp only [bodySetReserve, onChannel0, State.complete_ok, inRange_iff]
  by_cases keep : s0.option1 .ch0 = true
  · refine (if_pos keep).trans (Eq.trans ?_ (if_pos keep).symm)
    refine congrArg _ ((State.reserveWords_eq hq0).trans ?_)
    simp only [queue]
    rfl
  · refine (if_neg keep).trans (Eq.trans ?_ (if_neg keep).symm)
    rw [State.served_arg]
    by_cases hf : 8 < floor
    · rw [if_pos hf, if_neg fun h => absurd h.2 (by omega)]
      exact State.fail_answer _ .ch0 (by decide)
    · rw [if_neg hf, if_pos ⟨Nat.zero_le _, by omega⟩]
      refine congrArg _ ((State.reserveWords_eq (s := { s0 with pool := { s.pool with reserveFloor := floor } }) hq0).trans ?_)
      simp only [queue]
      rfl

end Sys2Proof.Machine
end

section
/-! The Admission Unit: the allocator (R145), admission attempts and retries (R144, R146), candidates (R141, R142), and the
admission commands (R148 to R153). -/

namespace Sys2Proof.Machine

variable {s : State}

/-! ### The allocator -/

/-- The allocator's search, over the addresses of the allocation range. -/
theorem State.allocateAddress_eq (s : State) : s.allocateAddress =
    ((List.range' s.adm.lower (s.adm.upper + 1 - s.adm.lower)).find? fun a =>
      decide (s.lookup (BitVec.ofNat 8 a) = none)).map (BitVec.ofNat 8) := by
  unfold State.allocateAddress
  congr 2
  funext a
  cases s.lookup (BitVec.ofNat 8 a) <;> simp

/-- A search of a range finds the lowest number that passes the test. -/
theorem find?_range'_eq_some {p : Nat → Bool} {lower n a : Nat} (ha : lower ≤ a ∧ a < lower + n) (hp : p a = true)
    (hlow : ∀ b, lower ≤ b → b < a → p b = false) : (List.range' lower n).find? p = some a := by
  induction n generalizing lower with
  | zero => omega
  | succ n ih =>
    rw [List.range'_succ, List.find?_cons]
    by_cases e : lower = a
    · rw [e, hp]
    · rw [hlow lower (le_refl _) (by omega)]
      exact ih (by omega) fun b hb => hlow b (by omega)

/-- Settles O44: the search over the range finds its lowest free address, or nothing. -/
theorem allocatorGivesLowestAddress : Obligations.AllocatorGivesLowestAddress := by
  unfold Obligations.AllocatorGivesLowestAddress
  intro s hupper free
  refine ⟨fun a ha hlow => ?_, fun hno => ?_⟩
  · obtain ⟨h1, h2, h3⟩ := ha
    rw [State.allocateAddress_eq, find?_range'_eq_some (a := a) (by omega) (by simpa using h3) fun b hb hba => ?_]
    · rfl
    · simpa using fun e => hlow b hba ⟨hb, by omega, e⟩
  · rw [State.allocateAddress_eq, List.find?_eq_none.2 fun a ha => ?_]
    · rfl
    · rw [List.mem_range'_1] at ha
      simpa using fun e => hno a ⟨by omega, by omega, e⟩

/-! ### Admission attempts and retries -/

/-- An admission with an address and a slot: the ADMITTING record, and the identity's candidate gone (R144). -/
def State.admitted (s : State) (identity : List Byte) (cls : Class) (owner : Channel) (a : Byte) (i : SlotNo)
    (rest : List SlotNo) : State :=
  { s with
    registry := { s.registry with
      slots := s.registry.slots.set i
        { gen := (s.slot i).gen + 1, record := some (Record.fresh .admitting a identity cls owner) }
      addressIndex := s.registry.addressIndex.set a.toFin (some i)
      freeSlots := rest
      admitQueue := s.registry.admitQueue ++ [i] }
    adm := { s.adm with candidates := s.adm.candidates.filter fun c => c.identity ≠ identity } }

theorem State.admitAt_eq (s : State) (identity : List Byte) (cls : Class) (owner : Channel) (a : Byte) :
    s.admitAt identity cls owner a =
      match s.registry.freeSlots with
      | i :: rest => some (i, s.admitted identity cls owner a i rest)
      | [] => none := by
  unfold State.admitAt
  rcases State.createRecord_cases s (Record.fresh .admitting a identity cls owner) with ⟨hf, hc⟩ | ⟨i, rest, hf, hc⟩
  · rw [hc, hf]
  · rw [hc, hf]
    rfl

theorem State.attempt_eq (s : State) (identity : List Byte) (cls : Class) (owner : Channel) :
    s.attempt identity cls owner =
      match s.allocateAddress, s.registry.freeSlots with
      | some a, i :: rest => some (s.admitted identity cls owner a i rest)
      | _, _ => none := by
  unfold State.attempt
  cases s.allocateAddress with
  | none => rfl
  | some a =>
    dsimp only
    rw [State.admitAt_eq]
    cases s.registry.freeSlots <;> rfl

/-- The UNDECIDED candidates in front are passed over. -/
theorem State.retryAmong_undecided (s : State) {before : List Candidate} (h : ∀ b ∈ before, b.disposition = .undecided)
    (after : List Candidate) : s.retryAmong (before ++ after) = s.retryAmong after := by
  induction before with
  | nil => rfl
  | cons b before ih =>
    rw [List.cons_append, State.retryAmong, h b (by simp)]
    exact ih fun c hc => h c (by simp [hc])

/-- Settles O45: the attempt by its two wants, and the retries by the first DEFERRED candidate. -/
theorem admissionAttemptAndRetries : Obligations.AdmissionAttemptAndRetries := by
  unfold Obligations.AdmissionAttemptAndRetries
  refine ⟨fun s identity cls owner => ?_, fun s => rfl, fun s cs h => ?_, fun s before after c cls owner h hc => ?_⟩
  · rw [State.attempt_eq]
    cases s.allocateAddress <;> cases s.registry.freeSlots <;> rfl
  · rw [← List.append_nil cs, s.retryAmong_undecided h]
    rfl
  · rw [s.retryAmong_undecided h, State.retryAmong, hc]
    dsimp only
    exact ⟨fun failed => by rw [failed], fun t admitted => by rw [admitted]⟩

/-! ### New candidates -/

/-- The ticket search: within n steps it stops at the first value that is not in use, or has passed n values that are. -/
theorem freeTicket_spec (used : List Byte) (n : Nat) : ∀ start : Byte, ∃ k ≤ n,
    freeTicket used start n = start + BitVec.ofNat 8 k
      ∧ (∀ j < k, start + BitVec.ofNat 8 j ∈ used) ∧ (k < n → start + BitVec.ofNat 8 k ∉ used) := by
  induction n with
  | zero => exact fun start => ⟨0, le_refl _, by simp [freeTicket], by simp, by simp⟩
  | succ n ih =>
    intro start
    rw [freeTicket]
    split
    · next used_start =>
      obtain ⟨k, hk, e, hbelow, hfree⟩ := ih (start + 1)
      have shift : ∀ j : Nat, start + 1 + BitVec.ofNat 8 j = start + BitVec.ofNat 8 (j + 1) := by
        intro j
        rw [Nat.add_comm j 1, BitVec.ofNat_add, BitVec.add_assoc]
        rfl
      refine ⟨k + 1, by omega, by rw [e, shift], fun j hj => ?_, fun hlt => ?_⟩
      · cases j with
        | zero => simpa using used_start
        | succ j => exact shift j ▸ hbelow j (by omega)
      · exact shift k ▸ hfree (by omega)
    · next free_start => exact ⟨0, by omega, by simp, by simp, fun _ => by simpa using free_start⟩

/-- Fewer than 8 entries cannot hold the 8 values from a start on, so within 8 steps a free one is found (R142). -/
theorem freeTicket_free {used : List Byte} (h : used.length < 8) (start : Byte) : ∃ k ≤ 8,
    freeTicket used start 8 = start + BitVec.ofNat 8 k
      ∧ (∀ j < k, start + BitVec.ofNat 8 j ∈ used) ∧ start + BitVec.ofNat 8 k ∉ used := by
  obtain ⟨k, hk, e, hbelow, hfree⟩ := freeTicket_spec used 8 start
  have inj : ∀ i < 8, ∀ j < 8, start + BitVec.ofNat 8 i = start + BitVec.ofNat 8 j → i = j := by
    intro i hi j hj hij
    have := congrArg BitVec.toNat hij
    simp only [BitVec.toNat_add, BitVec.toNat_ofNat] at this
    omega
  have hlt : k < 8 := by
    by_contra hge
    have hsub : ((List.range 8).map fun j => start + BitVec.ofNat 8 j) ⊆ used := by
      intro x hx
      obtain ⟨j, hj, rfl⟩ := List.mem_map.1 hx
      exact hbelow j (by have := List.mem_range.1 hj; omega)
    have hnodup : ((List.range 8).map fun j => start + BitVec.ofNat 8 j).Nodup :=
      List.Nodup.map_on (fun i hi j hj => inj i (List.mem_range.1 hi) j (List.mem_range.1 hj)) List.nodup_range
    have := (hnodup.subperm hsub).length_le
    simp at this
    omega
  exact ⟨k, hk, e, hbelow, hfree hlt⟩

/-- Settles O43: the list's length; a free ticket is found within the steps of the search. -/
theorem newCandidateTicket : Obligations.NewCandidateTicket := by
  unfold Obligations.NewCandidateTicket
  intro s identity d
  refine ⟨fun hlen => ?_, fun hlen => ?_⟩
  · obtain ⟨k, hk, e, hbelow, hfree⟩ :=
      freeTicket_free (used := s.adm.candidates.map Candidate.ticket) (by simpa using hlen) s.adm.ticket
    refine ⟨k, hk, fun c hc he => hfree (he ▸ List.mem_map_of_mem hc), fun j hj => by simpa using hbelow j hj, ?_⟩
    rw [State.addCandidate, if_pos hlen, e]
    rfl
  · rw [State.addCandidate, if_neg (by omega)]
    rfl

end Sys2Proof.Machine
end

section
/-! The admission commands: SET ADMISSION, WRITE FILTER, READ FILTER, READ CANDIDATE, APPROVE and REJECT (R148 to R153). -/

namespace Sys2Proof.Machine

variable {s : State}

/-! ### SET ADMISSION -/

/-- The results of SET ADMISSION, where the Candidate List and the next partition number fit their fields (R148). -/
theorem State.admissionWords_eq (hc : s.adm.candidates.length ≤ 8) (hp : s.adm.nextPartition < 8) : s.admissionWords =
    [BitVec.ofNat 16 s.adm.interval, BitVec.ofNat 16 s.adm.width, BitVec.ofNat 16 s.adm.lapseLimit,
      BitVec.ofNat 16 s.adm.lower, BitVec.ofNat 16 s.adm.upper,
      BitVec.ofNat 16 (s.adm.ticket.toNat + 256 * s.adm.candidates.length + 4096 * s.adm.nextPartition)] := by
  have ht := s.adm.ticket.isLt
  have fields : bitsAt s.adm.ticket.toNat 8 0 + bitsAt s.adm.candidates.length 4 8 + bitsAt s.adm.nextPartition 3 12 =
      s.adm.ticket.toNat + 256 * s.adm.candidates.length + 4096 * s.adm.nextPartition := by
    rw [bitsAt_of_lt 0 ht, bitsAt_of_lt 8 (by omega), bitsAt_of_lt 12 (by omega)]
    omega
  rw [State.admissionWords, fields]
  rfl

/-- An admission changes neither the settings nor the ticket counter, and removes candidates at most. -/
theorem State.attempt_adm {t : State} {identity : List Byte} {cls : Class} {owner : Channel}
    (h : s.attempt identity cls owner = some t) : t.adm = { s.adm with candidates := t.adm.candidates }
      ∧ t.adm.candidates.Sublist s.adm.candidates := by
  obtain ⟨a, i, rest, -, -, rfl⟩ := State.attempt_cases s identity cls owner h
  exact ⟨rfl, List.filter_sublist⟩

theorem State.retryAmong_adm (cs : List Candidate) : ∀ s : State,
    (s.retryAmong cs).1.adm = { s.adm with candidates := (s.retryAmong cs).1.adm.candidates }
      ∧ (s.retryAmong cs).1.adm.candidates.Sublist s.adm.candidates := by
  induction cs with
  | nil => exact fun s => ⟨rfl, .refl _⟩
  | cons c cs ih =>
    intro s
    rw [State.retryAmong]
    split
    · exact ih s
    · split
      · exact ⟨rfl, .refl _⟩
      · next s1 h =>
        obtain ⟨e1, sub1⟩ := State.attempt_adm h
        obtain ⟨e2, sub2⟩ := ih s1
        exact ⟨e2.trans (by rw [e1]), sub2.trans sub1⟩

/-- Settles O26: KEEP, the ranges of the arguments, and then the writes, the retries and the wake. -/
theorem setAdmissionEffect : Obligations.SetAdmissionEffect := by
  unfold Obligations.SetAdmissionEffect
  intro opts s ready hc hp s0 w results good s1 s2
  refine (command_ready ready bodySetAdmission opts).trans (congrArg _ ?_)
  have hgood : s0.admissionArgsOk .ch0 = true ↔ good := by
    simp only [State.admissionArgsOk, s0, State.served_arg, Bool.and_eq_true, inRange_iff, decide_eq_true_eq, good, w]
    omega
  have hwrite : s0.writeAdmission (s0.arg .ch0 0).toNat (s0.arg .ch0 1).toNat (s0.arg .ch0 2).toNat
      (s0.arg .ch0 3).toNat (s0.arg .ch0 4).toNat = s1 := by
    simp only [s0, State.served_arg]
    rfl
  have words2 : s2.1.admissionWords = results s2.1 := by
    obtain ⟨e, sub⟩ := State.retryAmong_adm s1.adm.candidates s1
    refine State.admissionWords_eq (sub.length_le.trans hc) ?_
    rw [show s2.1.adm = _ from e]
    change (if w 1 = s.adm.width then s.adm.nextPartition else 0) < 8
    split <;> omega
  change bodySetAdmission .ch0 s0 = _
  simp only [bodySetAdmission, onChannel0, State.complete_ok, hwrite]
  by_cases keep : s0.option1 .ch0 = true
  · rw [if_pos keep, if_pos keep]
    exact congrArg _ (State.admissionWords_eq (s := s0) hc hp)
  · rw [if_neg keep, if_neg keep]
    by_cases hg : good
    · rw [if_pos (hgood.2 hg), if_neg (not_not.2 hg)]
      exact congrArg _ words2
    · rw [if_neg (mt hgood.1 hg), if_pos hg]
      exact State.fail_answer _ .ch0 (by decide)

/-! ### WRITE FILTER and READ FILTER -/

theorem yesNoOf_eq (n : Nat) : yesNoOf n = if n ≤ 1 then some (decide (n = 1)) else none := by
  match n with
  | 0 | 1 => rfl
  | n + 2 => simp [yesNoOf]

theorem actionOf_eq (n : Nat) : actionOf n = if n ≤ 1 then some (if n = 0 then .refuse else .admitIt) else none := by
  match n with
  | 0 | 1 => rfl
  | n + 2 => simp [actionOf]

theorem classOwnerOf_eq (w : Word) : classOwnerOf w =
    if (loByte w).toNat ≤ 1 ∧ (hiByte w).toNat ≤ 1 then
      some (if (loByte w).toNat = 0 then .fast else .slow, if (hiByte w).toNat = 0 then .ch0 else .ch1)
    else none := by
  unfold classOwnerOf
  have hc : ∀ n : Nat, classOf n = if n ≤ 1 then some (if n = 0 then .fast else .slow) else none := fun n =>
    match n with
    | 0 | 1 => rfl
    | n + 2 => by simp [classOf]
  have ho : ∀ n : Nat, ownerOf n = if n ≤ 1 then some (if n = 0 then .ch0 else .ch1) else none := fun n =>
    match n with
    | 0 | 1 => rfl
    | n + 2 => by simp [ownerOf]
  rw [hc, ho]
  by_cases h1 : (loByte w).toNat ≤ 1 <;> by_cases h2 : (hiByte w).toNat ≤ 1 <;> simp [h1, h2]

/-- The filter that WRITE FILTER's words give, but for its pattern (R149). -/
def filterGiven (w : Fin 6 → Word) : Filter where
  enabled := decide ((loByte (w 1)).toNat = 1)
  action := if (hiByte (w 1)).toNat = 0 then .refuse else .admitIt
  cls := if (loByte (w 2)).toNat = 0 then .fast else .slow
  owner := if (hiByte (w 2)).toNat = 0 then .ch0 else .ch1
  minLength := (w 3).toNat
  compare := w 4
  pattern := Vector.replicate 16 0

/-- The words of WRITE FILTER, but for its buffer, are in range (R149, log entry 13). -/
def FilterWordsOk (w : Fin 6 → Word) : Prop :=
  (w 0).toNat < 8 ∧ (loByte (w 1)).toNat ≤ 1 ∧ (hiByte (w 1)).toNat ≤ 1
    ∧ (loByte (w 2)).toNat ≤ 1 ∧ (hiByte (w 2)).toNat ≤ 1 ∧ (w 3).toNat ≤ 16

theorem State.filterArgs_of_ok {ch : Channel} {n : Fin 8} (h : FilterWordsOk (s.arg ch))
    (hn : n.val = (s.arg ch 0).toNat) : s.filterArgs ch = some (n, filterGiven (s.arg ch)) := by
  obtain ⟨h0, h1, h2, h3, h4, h5⟩ := h
  have en : (⟨(s.arg ch 0).toNat, h0⟩ : Fin 8) = n := Fin.ext hn.symm
  simp [State.filterArgs, yesNoOf_eq, actionOf_eq, classOwnerOf_eq, h0, h1, h2, h3, h4, h5, en, filterGiven]

theorem State.filterArgs_of_not_ok {ch : Channel} (h : ¬ FilterWordsOk (s.arg ch)) : s.filterArgs ch = none := by
  simp only [State.filterArgs, yesNoOf_eq, actionOf_eq, classOwnerOf_eq]
  by_cases h0 : (s.arg ch 0).toNat < 8
  · by_cases h1 : (loByte (s.arg ch 1)).toNat ≤ 1
    · by_cases h2 : (hiByte (s.arg ch 1)).toNat ≤ 1
      · by_cases h3 : (loByte (s.arg ch 2)).toNat ≤ 1 ∧ (hiByte (s.arg ch 2)).toNat ≤ 1
        · have h5 : ¬ (s.arg ch 3).toNat ≤ 16 := fun h5 => h ⟨h0, h1, h2, h3.1, h3.2, h5⟩
          simp [h0, h1, h2, h3, h5]
        · simp [h3]
      · simp [h2]
    · simp [h1]
  · simp [h0]

/-- WRITE FILTER on Channel 0 by its arguments and, where there is a pattern, its buffer (R149). -/
theorem bodyWriteFilter_ch0 (s : State) : bodyWriteFilter .ch0 s =
    match s.filterArgs .ch0 with
    | none => s.answer .ch0 .badArgument []
    | some (n, f) =>
      if f.minLength = 0 then (s.setFilter n f).answer .ch0 .ok []
      else
        match bufOf (s.arg .ch0 5) with
        | none => s.answer .ch0 .badArgument []
        | some b =>
          if s.Holds .ch0 b then
            (s.setFilter n { f with pattern := patternOf (s.bufferBytes b f.minLength) f.minLength }).answer .ch0 .ok []
          else s.answer .ch0 .notHeld [] := by
  simp only [bodyWriteFilter, onChannel0, State.complete_ok, s.isHeld_iff]
  rcases s.filterArgs .ch0 with _ | ⟨n, f⟩
  · simp
  · cases bufOf (s.arg .ch0 5) <;> simp

/-- The pattern a filter stores, byte by byte from the buffer (R138, R149). -/
theorem patternOf_bufferBytes (s : State) (b : BufNo) (n : Nat) : patternOf (s.bufferBytes b n) n =
    Vector.ofFn fun k : Fin 16 => if k.val < n then Memory.read s.pool.mem (128 * b.val + k.val) else 0 := by
  unfold patternOf State.bufferBytes
  congr 1
  funext k
  by_cases h : k.val < n
  · rw [if_pos h, if_pos h, Memory.readBytes_getD, if_pos h]
    rfl
  · rw [if_neg h, if_neg h]

/-- An empty pattern is 0 at every position. -/
theorem emptyPattern_eq (p : Fin 16 → Byte) :
    Vector.replicate 16 (0 : Byte) = Vector.ofFn fun k : Fin 16 => if k.val < 0 then p k else 0 := by
  ext k hk
  simp

/-- READ FILTER on Channel 0 by its two arguments, and the buffer where there is a pattern (R150). -/
theorem bodyReadFilter_ch0 {n : Fin 8} {b : BufNo} (hn : n.val = (s.arg .ch0 0).toNat)
    (hb : b.val = (s.arg .ch0 1).toNat) : bodyReadFilter .ch0 s =
      if s.adm.filters[n].minLength = 0 then s.answer .ch0 .ok (filterWords n s.adm.filters[n])
      else if s.Holds .ch0 b then
        (s.stageOut b (s.adm.filters[n].pattern.toList.take s.adm.filters[n].minLength)).answer .ch0 .ok
          (filterWords n s.adm.filters[n])
      else s.answer .ch0 .notHeld [] := by
  have en : (⟨(s.arg .ch0 0).toNat, hn ▸ n.isLt⟩ : Fin 8) = n := Fin.ext hn.symm
  simp only [bodyReadFilter, onChannel0, dif_pos (hn ▸ n.isLt : (s.arg .ch0 0).toNat < 8), bufOf_eq_some hb, en,
    State.complete_ok, s.isHeld_iff]
  split
  · rfl
  · split
    · rfl
    · exact State.fail_answer _ .ch0 (by decide)

theorem filterWords_eq (n : Fin 8) (f : Filter) : filterWords n f =
    [BitVec.ofNat 16 n.val, BitVec.ofNat 16 ((if f.enabled then 1 else 0) + 256 * f.action.code),
      BitVec.ofNat 16 (f.cls.code + 256 * channelCode f.owner), BitVec.ofNat 16 f.minLength, f.compare] := by
  have flags : wordOf2 (yesNo f.enabled) f.action.code =
      BitVec.ofNat 16 ((if f.enabled then 1 else 0) + 256 * f.action.code) := by
    cases f.enabled <;> cases f.action <;> rfl
  have classOwner : wordOf2 f.cls.code (channelCode f.owner) =
      BitVec.ofNat 16 (f.cls.code + 256 * channelCode f.owner) := by
    cases f.cls <;> cases f.owner <;> rfl
  rw [filterWords, flags, classOwner]
  rfl

/-- Settles O27: the actions by constructor, and each command by its arguments and its buffer. -/
theorem filterCommands : Obligations.FilterCommands := by
  unfold Obligations.FilterCommands
  refine ⟨fun x => by cases x <;> rfl, fun opts s ready => ?_, fun opts s ready hwf => ?_⟩
  · intro s0 w size good
    have same : s0.arg .ch0 = w := funext fun n => s.served_arg .ch0 0x51 opts n
    have taken := command_ready ready bodyWriteFilter opts
    rw [bodyWriteFilter_ch0] at taken
    refine ⟨fun bad => taken.trans (congrArg _ ?_), fun n b hgood hn hb => taken.trans (congrArg _ ?_)⟩
    · by_cases hok : FilterWordsOk w
      · have hsize : size ≠ 0 := fun e =>
          bad (by obtain ⟨h0, h1, h2, h3, h4, h5⟩ := hok; exact ⟨h0, h1, h2, h3, h4, h5, .inl e⟩)
        have hb : bufOf (w 5) = none := by
          refine bufOf_eq_none ?_
          by_contra hlt
          obtain ⟨h0, h1, h2, h3, h4, h5⟩ := hok
          exact bad ⟨h0, h1, h2, h3, h4, h5, .inr (by omega)⟩
        rw [State.filterArgs_of_ok (n := ⟨(w 0).toNat, hok.1⟩) (same ▸ hok) (by rw [same]), same, hb]
        exact if_neg hsize
      · rw [State.filterArgs_of_not_ok (same ▸ hok)]
    · obtain ⟨h0, h1, h2, h3, h4, h5, h6⟩ := hgood
      have hok : FilterWordsOk w := ⟨h0, h1, h2, h3, h4, h5⟩
      rw [State.filterArgs_of_ok (n := n) (same ▸ hok) (by rw [same, hn]), same]
      by_cases hsize : size = 0
      · refine (if_pos hsize).trans (Eq.trans ?_ (if_neg fun h => h.1 hsize).symm)
        rw [filterGiven, emptyPattern_eq fun k => Memory.read s.pool.mem (128 * b.val + k.val), ← hsize]
        rfl
      · refine (if_neg hsize).trans ?_
        have hbuf : bufOf (w 5) = some b := bufOf_eq_some (hb.resolve_left hsize)
        rw [hbuf]
        dsimp only
        by_cases held : s.Holds .ch0 b
        · refine (if_pos held).trans (Eq.trans ?_ (if_neg fun h => h.2 held).symm)
          rw [patternOf_bufferBytes]
          rfl
        · exact (if_neg held).trans (if_pos ⟨hsize, held⟩).symm
  · intro s0 w
    have same : s0.arg .ch0 = w := funext fun n => s.served_arg .ch0 0x52 opts n
    refine ⟨fun bad => (command_ready ready bodyReadFilter opts).trans (congrArg _ ?_), fun n b hn hb => ?_⟩
    · change bodyReadFilter .ch0 s0 = _
      simp only [bodyReadFilter, onChannel0, same]
      split
      · next h8 =>
        rw [bufOf_eq_none (Nat.lt_of_not_le fun h => bad ⟨h8, by omega⟩)]
        exact State.fail_answer _ .ch0 (by decide)
      · exact State.fail_answer _ .ch0 (by decide)
    · intro f results
      have taken := command_ready ready bodyReadFilter opts
      rw [bodyReadFilter_ch0 (n := n) (b := b) (by rw [State.served_arg, hn]) (by rw [State.served_arg, hb]),
        filterWords_eq] at taken
      refine ⟨fun hz => taken.trans (congrArg _ (if_pos hz)), fun hz hh => ?_, fun hz h16 hh => ?_⟩
      · exact taken.trans (congrArg _ ((if_neg hz).trans (if_neg hh)))
      · have item : (f.pattern.toList.take f.minLength).length = f.minLength := by simp; omega
        refine ⟨_, taken.trans (congrArg _ ((if_neg hz).trans (if_pos hh))), ?_, ?_⟩
        · simp only [State.answer_pool, State.stageOut_eq]
          exact State.wrote_writeBuffer (s := s0) hwf b (by rw [show s0.adm = s.adm from rfl, item]; omega)
        · simp only [State.answer_pool, State.stageOut_eq]
          rw [show (s0.adm.filters[n].pattern.toList.take s0.adm.filters[n].minLength).length = f.minLength from item]
          rfl

end Sys2Proof.Machine
end

section
/-! READ CANDIDATE, APPROVE and REJECT (R151 to R153), and TAKE CHANGE (R180, R181). -/

namespace Sys2Proof.Machine

variable {s : State}

/-! ### READ CANDIDATE -/

theorem dispositionWord_eq (d : Disposition) : dispositionWord d =
    match d with
    | .undecided => 0x0303
    | .deferred cls owner => BitVec.ofNat 16 (cls.code + 256 * channelCode owner) := by
  cases d with
  | undecided => rfl
  | deferred cls owner => cases cls <;> cases owner <;> rfl

theorem dispositionCode_eq (d : Disposition) : wordOf d.code = if d = .undecided then 0 else 1 := by
  cases d <;> rfl

/-- The results of READ CANDIDATE for the entry at its position (R151). -/
def State.candidateWords (s : State) (c : Candidate) : List Word :=
  [BitVec.ofNat 16 c.ticket.toNat, if c.disposition = .undecided then 0 else 1, BitVec.ofNat 16 c.lapse,
   BitVec.ofNat 16 c.identity.length,
   match c.disposition with
     | .undecided => 0x0303
     | .deferred cls owner => BitVec.ofNat 16 (cls.code + 256 * channelCode owner),
   BitVec.ofNat 16 s.adm.candidates.length]

/-- READ CANDIDATE on Channel 0 with a position and a buffer in range (R151). -/
theorem bodyReadCandidate_ch0 {b : BufNo} (hp : (s.arg .ch0 0).toNat < 8) (hb : b.val = (s.arg .ch0 1).toNat) :
    bodyReadCandidate .ch0 s =
      if s.Holds .ch0 b then
        match s.adm.candidates[(s.arg .ch0 0).toNat]? with
        | none => s.answer .ch0 .notFound []
        | some c => (s.stageOut b c.identity).answer .ch0 .ok (s.candidateWords c)
      else s.answer .ch0 .notHeld [] := by
  simp only [bodyReadCandidate, onChannel0, if_pos hp, bufOf_eq_some hb, s.isHeld_iff, State.complete_ok]
  split
  · cases s.adm.candidates[(s.arg .ch0 0).toNat]? with
    | none => exact State.fail_answer _ .ch0 (by decide)
    | some c =>
      dsimp only
      rw [dispositionWord_eq, dispositionCode_eq]
      rfl
  · exact State.fail_answer _ .ch0 (by decide)

/-- Settles O28: the two arguments, who holds the buffer, the position, and the identity staged out. -/
theorem readCandidateEffect : Obligations.ReadCandidateEffect := by
  unfold Obligations.ReadCandidateEffect
  intro opts s ready hwf s0 w position
  have same : ∀ n, s0.arg .ch0 n = w n := s.served_arg .ch0 0x53 opts
  refine ⟨fun bad => (command_ready ready bodyReadCandidate opts).trans (congrArg _ ?_), fun b hp hb => ?_⟩
  · change bodyReadCandidate .ch0 s0 = _
    simp only [bodyReadCandidate, onChannel0, same]
    split
    · next h8 =>
      rw [bufOf_eq_none (Nat.lt_of_not_le fun h => bad ⟨h8, by omega⟩)]
      exact State.fail_answer _ .ch0 (by decide)
    · exact State.fail_answer _ .ch0 (by decide)
  · have taken : exec (.readCandidate .ch0 opts) s = .next (bodyReadCandidate .ch0 s0) :=
      command_ready ready bodyReadCandidate opts
    rw [bodyReadCandidate_ch0 (b := b) (by rw [same]; exact hp) (by rw [same]; exact hb), same] at taken
    refine ⟨fun hh => taken.trans (congrArg _ (if_neg hh)), fun hh hlen => ?_, fun c hh hc hlen => ?_⟩
    · refine taken.trans (congrArg _ ((if_pos hh).trans ?_))
      rw [show s0.adm.candidates[(w 0).toNat]? = none from List.getElem?_eq_none hlen]
    · refine ⟨_, taken.trans (congrArg _ (if_pos hh)), ?_, ?_⟩ <;>
        rw [show s0.adm.candidates[(w 0).toNat]? = some c from hc]
      · simp only [State.answer_pool, State.stageOut_eq]
        exact State.wrote_writeBuffer (s := s0) hwf b (by omega)
      · rw [State.answer_pool]
        rfl

/-! ### APPROVE and REJECT -/

theorem State.ticketHolder_eq (s : State) (ticket : Nat) :
    s.ticketHolder ticket = s.adm.candidates.find? fun c => decide (c.ticket.toNat = ticket) := rfl

/-- APPROVE of a candidate: the slot, then the address, and the admission, which wakes the Trunk Engine (R152, R83). -/
theorem State.approve_eq (s : State) (ch : Channel) (c : Candidate) (cls : Class) (owner : Channel) (address : Nat) :
    s.approve ch c cls owner address =
      match s.registry.freeSlots with
      | [] => s.answer ch .noSlot []
      | i :: rest =>
        match s.approveAddress address with
        | .error code => s.fail ch code
        | .ok a => (s.admitted c.identity cls owner a i rest).wake.answer ch .ok
            [((s.slot i).gen + 1) ++ BitVec.ofNat 8 i.val, BitVec.ofNat 16 a.toNat] := by
  rw [State.approve]
  cases hf : s.registry.freeSlots with
  | nil => exact (if_pos rfl).trans (State.fail_answer _ ch (by decide))
  | cons i rest =>
    refine (if_neg (by simp)).trans ?_
    dsimp only
    cases s.approveAddress address with
    | error code => rfl
    | ok a =>
      dsimp only
      rw [State.admitAt_eq, hf]
      refine (State.complete_ok ..).trans (congrArg (State.answer _ ch .ok [·, BitVec.ofNat 16 a.toNat]) ?_)
      simp [handleWord, State.handle, State.slot, State.admitted, ofBytes]

/-- Settles O29: APPROVE's checks in their order and its admission; REJECT's two checks and the entry removed. -/
theorem candidateDecisions : Obligations.CandidateDecisions := by
  unfold Obligations.CandidateDecisions
  refine ⟨fun opts s ready => ?_, fun opts s ready => ?_⟩
  · intro s0 ticket address
    refine (command_ready ready bodyApprove opts).trans (congrArg _ ?_)
    simp only [bodyApprove, onChannel0, State.served_arg]
    cases classOwnerOf (s.arg .ch0 1) with
    | none => exact State.fail_answer _ .ch0 (by decide)
    | some co =>
      simp only [Bool.and_eq_true, inRange_iff]
      by_cases hr : ticket ≤ 255 ∧ address ≤ 254
      · rw [if_pos ⟨⟨Nat.zero_le _, hr.1⟩, Nat.zero_le _, hr.2⟩, if_neg (not_not.2 hr), State.ticketHolder_eq,
          State.served_adm]
        dsimp only [ticket]
        cases s.adm.candidates.find? fun c => decide (c.ticket.toNat = (s.arg .ch0 0).toNat) with
        | none => exact State.fail_answer _ .ch0 (by decide)
        | some c =>
          dsimp only
          rw [State.approve_eq, State.served_registry]
          cases s.registry.freeSlots with
          | nil => rfl
          | cons i rest =>
            dsimp only [State.approveAddress]
            rw [State.served_allocateAddress, State.served_lookup]
            by_cases h0 : address = 0
            · rw [if_pos h0, if_pos h0]
              cases s.allocateAddress with
              | none => exact State.fail_answer _ .ch0 (by decide)
              | some a => rfl
            · rw [if_neg h0, if_neg h0]
              dsimp only [address]
              cases s.lookup (BitVec.ofNat 8 (s.arg .ch0 2).toNat) with
              | none => rfl
              | some j => exact State.fail_answer _ .ch0 (by decide)
      · rw [if_neg fun h => hr ⟨h.1.2, h.2.2⟩, if_pos hr]
        exact State.fail_answer _ .ch0 (by decide)
  · intro s0 ticket
    refine (command_ready ready bodyReject opts).trans (congrArg _ ?_)
    simp only [bodyReject, onChannel0, State.served_arg, inRange_iff, State.ticketHolder_eq, State.complete_ok]
    by_cases hr : 255 < ticket
    · rw [if_neg fun h => absurd h.2 (by omega), if_pos hr]
      exact State.fail_answer _ .ch0 (by decide)
    · rw [if_pos ⟨Nat.zero_le _, by omega⟩, if_neg hr, State.served_adm]
      dsimp only [ticket]
      cases s.adm.candidates.find? fun c => decide (c.ticket.toNat = (s.arg .ch0 0).toNat) with
      | none => exact State.fail_answer _ .ch0 (by decide)
      | some c =>
        dsimp only
        rw [dispositionCode_eq]
        rfl

/-! ### TAKE CHANGE -/

/-- The results of TAKE CHANGE for counts that fit a byte (R180). -/
theorem changeWords_eq (h : Handle) {r : Record} (left admitted : Nat) (hd : r.delivered ≤ 255)
    (hu : r.undelivered ≤ 255) : changeWords h r left admitted =
      [h.gen ++ BitVec.ofNat 8 h.slot.val, r.reasons.setWidth 16,
       BitVec.ofNat 16 (r.delivered + 256 * r.undelivered),
       BitVec.ofNat 16 (r.state.code
         + 256 * if r.state = .retiring ∨ r.state = .retired then causeCode r.retireCause else 0),
       BitVec.ofNat 16 left, BitVec.ofNat 16 admitted] := by
  have cause : ∀ n : Nat, n < 2 ^ 3 → wordOf2 r.state.code n = BitVec.ofNat 16 (r.state.code + 256 * n) := fun n hn =>
    wordOf2_of_lt (r.state.code_lt.trans (by decide)) (hn.trans (by decide))
  have hc := causeCode_lt r.retireCause
  rw [changeWords, wordOf2_of_lt (by omega) (by omega)]
  cases hs : r.state <;> rw [hs] at cause <;> simp [cause _ hc, handleWord, ofBytes, wordOf]
  all_goals exact cause 0 (by decide)

/-- Settles O34: an empty list, an entry that is cleared, and a RETIRED one that is freed. -/
theorem takeChangeEffect : Obligations.TakeChangeEffect := by
  unfold Obligations.TakeChangeEffect
  intro ch opts s ready s0
  have taken := command_ready ready bodyTakeChange opts
  have list : (s0.port ch).changeList = (s.port ch).changeList := by simp [s0]
  refine ⟨fun empty => taken.trans (congrArg _ ?_), fun i rest r hl hr hd hu => ?_⟩
  · change bodyTakeChange ch s0 = _
    rw [bodyTakeChange, list, empty]
    exact State.fail_answer _ ch (by decide)
  · intro s1 results
    have hr1 : s1.record i = some r := by simpa [s1, s0] using hr
    have words : ∀ n, changeWords (s0.handle i) r rest.length n = results n := fun n => by
      rw [changeWords_eq _ _ _ hd hu]
      simp [s0, State.handle, results]
    have entry : exec (.takeChange ch opts) s = .next (s0.takeEntry ch i rest) := by
      refine taken.trans (congrArg _ ?_)
      change bodyTakeChange ch s0 = _
      rw [bodyTakeChange, list, hl]
    refine ⟨fun hs => entry.trans (congrArg _ ?_), fun hs => ?_⟩
    · rw [State.takeEntry]
      dsimp only
      rw [show (s0.setPort ch { s0.port ch with changeList := rest }).record i = some r from hr1]
      dsimp only
      rw [if_neg hs, words, State.complete_ok]
    · intro s2 s3
      have freed : s1.freeSlot i = s2 := by unfold s2 s1 s0; cases ch <;> rfl
      refine entry.trans (congrArg _ ?_)
      rw [State.takeEntry]
      dsimp only
      rw [show (s0.setPort ch { s0.port ch with changeList := rest }).record i = some r from hr1]
      dsimp only
      rw [if_pos hs, words, State.complete_ok]
      exact congrArg (fun u : State =>
        (if u.retryDeferred.2 = 0 then u.retryDeferred.1 else u.retryDeferred.1.wake).answer ch .ok
          (results u.retryDeferred.2)) freed

end Sys2Proof.Machine
end

section
/-! Frames on the trunk: what arrives of a reply, its reception, and the frames the part builds (R56, R57, R64). -/

namespace Sys2Proof.Machine

/-! ### What arrives -/

/-- The byte heard at a position: past the bytes given the line rests at mark (R64). -/
def heard (bytes : List Byte) (k : Nat) : Byte := bytes.getD k 0xFF

theorem heard_of_lt {bytes : List Byte} {k : Nat} (h : k < bytes.length) : heard bytes k = bytes.getD k 0 := by
  simp [heard, h]

theorem take_eq_map_heard {bytes : List Byte} {n : Nat} (h : n ≤ bytes.length) :
    bytes.take n = (List.range n).map (heard bytes) := by
  apply List.ext_getElem
  · simpa using h
  · intro k h1 h2
    simp only [List.length_take] at h1
    have hk : k < bytes.length := by omega
    simp [heard, hk]

/-- With the clock running every byte is heard. -/
theorem arrived_running (bytes : List Byte) (n : Nat) :
    arrived bytes false n = some ((List.range n).map (heard bytes)) := by
  unfold arrived
  split
  · next h => rw [take_eq_map_heard h]
  · next h =>
    rw [if_neg (by decide)]
    refine congrArg some (List.ext_getElem (by simp; omega) fun k h1 h2 => ?_)
    by_cases hk : k < bytes.length
    · simp [heard, hk, List.getElem_append_left hk]
    · simp [heard, hk, List.getElem_append_right (Nat.le_of_not_lt hk)]

/-- With the clock lost nothing is heard past the bytes given. -/
theorem arrived_lost (bytes : List Byte) (n : Nat) :
    arrived bytes true n = if n ≤ bytes.length then some ((List.range n).map (heard bytes)) else none := by
  unfold arrived
  split
  · next h => rw [take_eq_map_heard h]
  · rfl

theorem frameByte_map {f : Nat → Byte} {k n : Nat} (h : k < n) : frameByte ((List.range n).map f) k = f k := by
  simp [frameByte, h]

/-- The start mark was heard. -/
abbrev Opened (bytes : List Byte) : Prop := heard bytes 0 = 0x5A ∧ heard bytes 1 = 0xC3

theorem opening_eq_startMark (bytes : List Byte) : (List.range 2).map (heard bytes) = startMark ↔ Opened bytes := by
  simp [List.range_succ, startMark, Opened]

/-! ### Reception -/

/-- Reception with the clock running (R64). -/
theorem receive_running (bytes : List Byte) : receive bytes false =
    if ¬ Opened bytes then .badOpening
    else if 120 < (heard bytes 5).toNat then .tooLong
    else .whole ((List.range (8 + (heard bytes 5).toNat)).map (heard bytes)) := by
  simp only [receive, arrived_running, ne_eq, opening_eq_startMark, frameByte_map (show 5 < 6 by decide)]

/-- Reception with the clock lost (R64). -/
theorem receive_lost (bytes : List Byte) : receive bytes true =
    if bytes.length < 2 then .truncated
    else if ¬ Opened bytes then .badOpening
    else if bytes.length < 6 then .truncated
    else if 120 < (heard bytes 5).toNat then .tooLong
    else if bytes.length < 8 + (heard bytes 5).toNat then .truncated
    else .whole (bytes.take (8 + (heard bytes 5).toNat)) := by
  simp only [receive, arrived_lost]
  by_cases h2 : bytes.length < 2
  · rw [if_neg (by omega), if_pos h2]
  · rw [if_pos (by omega), if_neg h2]
    simp only [ne_eq, opening_eq_startMark]
    by_cases ho : Opened bytes
    · rw [if_neg (not_not.2 ho), if_neg (not_not.2 ho)]
      by_cases h6 : bytes.length < 6
      · rw [if_neg (by omega), if_pos h6]
      · rw [if_pos (by omega), if_neg h6]
        simp only [frameByte_map (show 5 < 6 by decide)]
        by_cases hn : 120 < (heard bytes 5).toNat
        · rw [if_pos hn, if_pos hn]
        · rw [if_neg hn, if_neg hn]
          by_cases h8 : bytes.length < 8 + (heard bytes 5).toNat
          · rw [if_neg (by omega), if_pos h8]
          · rw [if_pos (by omega), if_neg h8, take_eq_map_heard (by omega)]
    · rw [if_pos ho, if_pos ho]

theorem framePayload_map (bytes : List Byte) : framePayload
    ((List.range (8 + (heard bytes 5).toNat)).map (heard bytes)) =
      (List.range (heard bytes 5).toNat).map fun k => heard bytes (6 + k) := by
  rw [framePayload, frameByte_map (by omega)]
  apply List.ext_getElem
  · simp; omega
  · intro k h1 h2
    simp

/-- The payload bytes of a DATA taken with the clock running (R70). -/
theorem dataPayloadTaken_running (bytes : List Byte) : dataPayloadTaken bytes false =
    if Opened bytes ∧ (heard bytes 5).toNat ≤ 120 ∧ (heard bytes 3).toNat / 16 = 9 then
      (List.range (heard bytes 5).toNat).map fun k => heard bytes (6 + k)
    else [] := by
  rw [dataPayloadTaken, receive_running]
  by_cases ho : Opened bytes
  · by_cases hn : 120 < (heard bytes 5).toNat
    · simp only [if_neg (not_not.2 ho), if_pos hn]
      rw [if_neg fun h => absurd h.2.1 (by omega)]
    · simp only [if_neg (not_not.2 ho), if_neg hn, framePayload_map, frameKind,
        frameByte_map (show 3 < 8 + (heard bytes 5).toNat by omega)]
      by_cases hk : (heard bytes 3).toNat / 16 = 9
      · rw [if_pos hk, if_pos ⟨ho, by omega, hk⟩]
      · rw [if_neg hk, if_neg fun h => hk h.2.2]
  · simp only [if_pos ho]
    rw [if_neg fun h => ho h.1]

theorem frameByte_take {bytes : List Byte} {k n : Nat} (hk : k < n) : frameByte (bytes.take n) k = frameByte bytes k := by
  simp [frameByte, hk]

theorem framePayload_take (bytes : List Byte) (h : 6 ≤ bytes.length) :
    framePayload (bytes.take (8 + (heard bytes 5).toNat)) = (bytes.drop 6).take (heard bytes 5).toNat := by
  rw [framePayload, frameByte_take (by omega), frameByte, ← heard_of_lt (by omega), List.drop_take, List.take_take]
  congr 1
  omega

/-- The payload bytes of a DATA taken before the clock was lost (R70). -/
theorem dataPayloadTaken_lost (bytes : List Byte) : dataPayloadTaken bytes true =
    if 6 ≤ bytes.length ∧ Opened bytes ∧ (heard bytes 5).toNat ≤ 120 ∧ (heard bytes 3).toNat / 16 = 9 then
      (bytes.drop 6).take (heard bytes 5).toNat
    else [] := by
  rw [dataPayloadTaken, receive_lost]
  by_cases h6 : 6 ≤ bytes.length
  · have e3 : frameByte bytes 3 = heard bytes 3 := (heard_of_lt (by omega)).symm
    have e5 : frameByte bytes 5 = heard bytes 5 := (heard_of_lt (by omega)).symm
    rw [if_neg (by omega), if_neg (by omega : ¬ bytes.length < 6)]
    by_cases ho : Opened bytes
    · rw [if_neg (not_not.2 ho)]
      by_cases hn : 120 < (heard bytes 5).toNat
      · rw [if_pos hn]
        exact (if_neg fun h => absurd h.2.2.1 (by omega)).symm
      · have cond : (6 ≤ bytes.length ∧ Opened bytes ∧ (heard bytes 5).toNat ≤ 120 ∧ (heard bytes 3).toNat / 16 = 9) ↔
            (heard bytes 3).toNat / 16 = 9 := ⟨fun h => h.2.2.2, fun h => ⟨h6, ho, by omega, h⟩⟩
        rw [if_neg hn, if_congr cond rfl rfl]
        by_cases h8 : bytes.length < 8 + (heard bytes 5).toNat
        · rw [if_pos h8]
          simp only [frameKind, framePayload, e3, e5, h6, true_and]
        · rw [if_neg h8]
          dsimp only
          rw [framePayload_take bytes h6, frameKind, frameByte_take (by omega), e3]
    · rw [if_pos ho]
      exact (if_neg fun h => ho h.2.1).symm
  · refine Eq.trans ?_ (if_neg fun h => h6 h.1).symm
    have short : bytes.length < 6 := by omega
    by_cases h2 : bytes.length < 2
    · rw [if_pos h2]
      exact if_neg fun h => h6 h.1
    · rw [if_neg h2, if_pos short]
      by_cases ho : Opened bytes
      · rw [if_neg (not_not.2 ho)]
        exact if_neg fun h => h6 h.1
      · rw [if_pos ho]

/-- A DATA's payload fits a buffer. -/
theorem dataPayloadTaken_length (bytes : List Byte) (lost : Bool) : (dataPayloadTaken bytes lost).length ≤ 120 := by
  cases lost
  · rw [dataPayloadTaken_running]
    split
    · next h => simpa using h.2.1
    · simp
  · rw [dataPayloadTaken_lost]
    split
    · next h => simp; omega
    · simp

/-! ### Frames built by the part -/

/-- A frame as R56 lays it out. -/
theorem frameBytes_eq (address : Byte) (code flags : BitVec 4) (sequence : Byte) (payload : List Byte) :
    frameBytes address code flags sequence payload =
      0x5A :: 0xC3 :: address :: (code ++ flags) :: sequence :: BitVec.ofNat 8 payload.length :: (payload ++
        [hiByte (crc ([address, code ++ flags, sequence, BitVec.ofNat 8 payload.length] ++ payload)),
         loByte (crc ([address, code ++ flags, sequence, BitVec.ofNat 8 payload.length] ++ payload))]) := by
  simp [frameBytes, startMark, kindByte]

/-- A frame whose length byte tells its length is received whole, whether or not the clock is lost behind it. -/
theorem receive_complete {frame : List Byte} (lost : Bool) (ho : Opened frame) (hn : (heard frame 5).toNat ≤ 120)
    (hl : frame.length = 8 + (heard frame 5).toNat) : receive frame lost = .whole frame := by
  cases lost
  · rw [receive_running, if_neg (not_not.2 ho), if_neg (by omega), ← hl, ← take_eq_map_heard (le_refl _),
      List.take_length]
  · rw [receive_lost, if_neg (by omega), if_neg (not_not.2 ho), if_neg (by omega), if_neg (by omega),
      if_neg (by omega), ← hl, List.take_length]

theorem seqByte_fields (ns nr : BitVec 3) :
    (seqByte ns nr).extractLsb' 4 3 = ns ∧ (seqByte ns nr).extractLsb' 0 3 = nr := by
  unfold seqByte
  constructor <;> revert ns nr <;> decide

theorem kindByte_fields (code flags : BitVec 4) :
    (code ++ flags).toNat / 16 = code.toNat ∧ (code ++ flags).extractLsb' 0 4 = flags := by
  constructor <;> revert code flags <;> decide

/-- Settles O54: the frame byte by byte, and what is heard of any bytes with the clock running and lost. -/
theorem frameRoundTrip : Obligations.FrameRoundTrip := by
  unfold Obligations.FrameRoundTrip
  refine ⟨fun address code flags ns nr payload hlen => ?_, fun bytes => ⟨receive_running bytes, receive_lost bytes,
    dataPayloadTaken_running bytes, dataPayloadTaken_lost bytes⟩⟩
  intro frame fields
  have hframe : frame = 0x5A :: 0xC3 :: (fields ++ [hiByte (crc fields), loByte (crc fields)]) := by
    rw [show frame = _ from frameBytes_eq address code flags (seqByte ns nr) payload]
    rfl
  have length : frame.length = 8 + payload.length := by
    rw [hframe]
    simp [fields]
    omega
  have size : (BitVec.ofNat 8 payload.length).toNat = payload.length := by simp; omega
  have h5 : heard frame 5 = BitVec.ofNat 8 payload.length := by rw [hframe]; rfl
  have f5 : frameByte frame 5 = BitVec.ofNat 8 payload.length := by rw [hframe]; rfl
  have whole : ∀ lost, receive frame lost = .whole frame := fun lost =>
    receive_complete lost (by rw [hframe]; exact ⟨rfl, rfl⟩) (by rw [h5, size]; exact hlen) (by rw [h5, size, length])
  have dropped : frame.drop 6 = payload ++ [hiByte (crc fields), loByte (crc fields)] := by rw [hframe]; rfl
  have check : checkPasses frame = true := by
    have inner : (frame.drop 2).take (4 + payload.length) = fields := by
      rw [hframe]
      exact List.take_left' (by simp [fields]; omega)
    have at6 : ∀ k, frameByte frame (6 + k) = (frame.drop 6).getD k 0 := fun k => by simp [frameByte]
    simp only [checkPasses, f5, size, inner]
    rw [show 7 + payload.length = 6 + (payload.length + 1) by omega, at6, at6, dropped]
    simp
  refine ⟨?_, length, whole false, whole true, check, ?_, ?_, ?_, ?_, ?_, ?_⟩
  · rw [hframe, hiByte_eq, loByte_eq]
    rfl
  · rw [hframe]
    rfl
  · rw [hframe]
    exact (kindByte_fields code flags).1
  · rw [hframe]
    exact (kindByte_fields code flags).2
  · rw [hframe]
    exact (seqByte_fields ns nr).1
  · rw [hframe]
    exact (seqByte_fields ns nr).2
  · rw [framePayload, f5, size, dropped, List.take_left]

end Sys2Proof.Machine
end

section
/-! The judgement of a received frame and the tables it reads (R57, R59, R65, R68). -/

namespace Sys2Proof.Machine

/-! ### The tables -/

theorem checkPasses_iff (frame : List Byte) : checkPasses frame = true ↔
    frame.getD (6 + (frame.getD 5 0).toNat) 0 ++ frame.getD (7 + (frame.getD 5 0).toNat) 0 =
      crc ((frame.drop 2).take (4 + (frame.getD 5 0).toNat)) := by
  have split_word : ∀ (hi lo : Byte) (w : Word), hi ++ lo = w ↔ hi = hiByte w ∧ lo = loByte w := by
    intro hi lo w
    have h1 := hi.isLt
    have h2 := lo.isLt
    have h3 := w.isLt
    simp only [hiByte_eq, loByte_eq, ← BitVec.toNat_inj, toNat_append_add, BitVec.extractLsb'_toNat,
      Nat.shiftRight_eq_div_pow]
    omega
  rw [split_word]
  simp [checkPasses, frameByte]

theorem formatPasses_iff (code n : Nat) : formatPasses code n = true ↔
    (1 ≤ code ∧ code ≤ 5) ∨ (code = 8 ∧ n = 0) ∨ (code = 9 ∧ n ≤ 120) ∨ (code = 10 ∧ n = 2)
      ∨ (code = 11 ∧ 1 ≤ n ∧ n ≤ 16) ∨ (code = 12 ∧ n = 0) := by
  unfold formatPasses
  split <;> simp
  simp only [imp_false] at *
  omega

/-- The hold value is the payload's first word without its top four bits (R59). -/
theorem holdValue_eq (payload : List Byte) : holdValue payload =
    (256 * (payload.getD 0 0).toNat + (payload.getD 1 0).toNat) % 4096 := by
  have h1 := (payload.getD 1 0).isLt
  unfold holdValue
  omega

theorem replyOf_eq (frame : List Byte) : replyOf frame =
    if frameKind frame = 8 then some .idle
    else if frameKind frame = 9 then some (.data (framePayload frame).length)
    else if frameKind frame = 10 then some (.hold (holdValue (framePayload frame)))
    else if frameKind frame = 11 then some (.join (framePayload frame))
    else if frameKind frame = 12 then some .leave
    else none := by
  unfold replyOf
  dsimp only
  split <;> simp_all

theorem allows_iff (kind : ExchangeKind) (k : ReplyKind) : allows kind k = true ↔
    (kind = .poll ∨ kind = .data) ∧ (k = .idle ∨ (∃ n, k = .data n) ∨ (∃ v, k = .hold v) ∨ k = .leave)
      ∨ kind = .admitExchange ∧ k = .idle
      ∨ kind = .invite ∧ ∃ identity, k = .join identity := by
  cases kind <;> cases k <;> simp [allows]

/-! ### The order of judgement -/

/-- The judgement of a whole frame, check by check (R65). -/
theorem judge_whole (kind : ExchangeKind) (expected : Byte → Bool) (frame : List Byte) :
    judge kind expected (.whole frame) =
      if ¬ checkPasses frame = true then .invalid .check
      else if ¬ formatPasses (frameKind frame) (frameByte frame 5).toNat = true then .invalid .format
      else if ¬ expected (frameByte frame 2) = true then .invalid .stray
      else
        match replyOf frame with
        | none => .invalid .unexpected
        | some k =>
          if allows kind k = true then .valid { kind := k, ns := frameNS frame, nr := frameNR frame }
          else .invalid .unexpected := by
  simp only [judge, Bool.not_eq_true', Bool.not_eq_true] <;> rfl

/-- Settles O55: the checks in their order, and each table. -/
theorem verdictOrder : Obligations.VerdictOrder := by
  unfold Obligations.VerdictOrder
  refine ⟨fun kind expected frame => ?_, checkPasses_iff, formatPasses_iff, fun frame => ?_, allows_iff⟩
  · intro verdict checked formed addressed
    have verdict_eq : verdict = _ := judge_whole kind expected frame
    refine ⟨rfl, rfl, rfl, fun hc => ?_, fun hc hf => ?_, fun hc hf ha => ?_, fun hc hf ha hk => ?_,
      fun k hc hf ha hr hk => ?_⟩ <;> rw [verdict_eq]
    · exact if_pos hc
    · exact (if_neg (not_not.2 hc)).trans (if_pos hf)
    · exact (if_neg (not_not.2 hc)).trans ((if_neg (not_not.2 hf)).trans (if_pos ha))
    · refine (if_neg (not_not.2 hc)).trans ((if_neg (not_not.2 hf)).trans ((if_neg (not_not.2 ha)).trans ?_))
      cases hr : replyOf frame with
      | none => rfl
      | some k => exact if_neg (ne_true_of_eq_false (hk k hr))
    · refine (if_neg (not_not.2 hc)).trans ((if_neg (not_not.2 hf)).trans ((if_neg (not_not.2 ha)).trans ?_))
      rw [hr]
      exact if_pos hk
  · intro code payload
    rw [replyOf_eq, holdValue_eq]
    rfl

end Sys2Proof.Machine
end

section
/-! RESET REGISTRY (R196), and the pin reset state as a sound one (R198). -/

namespace Sys2Proof.Machine

variable {s : State}

/-! ### RESET REGISTRY -/

theorem map_val_finRange (n : Nat) : (List.finRange n).map Fin.val = List.range n := by
  simp

/-- The state after a registry reset, block by block, whatever the reset found. -/
theorem State.resetBlocks_frame (s : State) : (∀ i, (s.resetBlocks.slot i).gen = (s.slot i).gen)
    ∧ (∀ i, s.resetBlocks.record i = none) ∧ (∀ a, s.resetBlocks.lookup a = none)
    ∧ (∀ b, s.resetBlocks.buffer b = { length := (s.buffer b).length, place := .free }) := by
  refine ⟨fun i => ?_, fun i => ?_, fun a => ?_, fun b => ?_⟩ <;>
    simp [State.resetBlocks, State.slot, State.record, State.lookup, State.buffer, State.reset]

/-- The discard of Channel 1's command changes its half alone. -/
theorem State.discardOther_eq (s : State) : s.discardOther = { s with port1 :=
    match s.port1.state with
    | .pending | .executing =>
      { s.port1 with state := .done, result := .aborted, words := Vector.replicate 6 0, done := true }
    | .idle | .done => s.port1 } := by
  unfold State.discardOther
  cases h : s.port1.state <;> rfl

/-- A dropped reception changes what waits on trunk data in and the memory of the buffers alone. -/
theorem State.dropReception_frame (s : State) : s.dropReception = { s with
    trunk := { s.trunk with replyIn := s.dropReception.trunk.replyIn }
    pool := { s.pool with mem := s.dropReception.pool.mem } } := by
  rcases s.dropReception_eq with e | ⟨x, b, -, -, -, e⟩
  · rw [e]
  · rw [e]
    rfl

/-- No reception is dropped where none is in progress or no buffer is reserved. -/
theorem State.dropReception_none
    (h : s.trunk.receiving = false ∨ ∀ x, s.trunk.current = some x → x.reserved = none) : s.dropReception = s := by
  rcases s.dropReception_eq with e | ⟨x, b, hx, hb, hr, -⟩
  · exact e
  · rcases h with h | h
    · rw [h] at hr
      cases hr
    · rw [h x hx] at hb
      cases hb

/-- A reception in progress with a reserved buffer is dropped (R70, R108). -/
theorem State.dropReception_some {x : Exchange} {b : BufNo} (hx : s.trunk.current = some x) (hb : x.reserved = some b)
    (hr : s.trunk.receiving = true) : s.dropReception =
      { s.writeBuffer b (dataPayloadTaken (s.trunk.replyIn.headD []) true) with
        trunk := { s.trunk with replyIn := s.trunk.replyIn.tail } } := by
  obtain ⟨kind, target, ns, ob, rs⟩ := x
  dsimp only at hb
  subst hb
  rw [State.dropReception, hx]
  dsimp only
  rw [if_pos hr, State.takePayload, hx]
  dsimp only
  rw [← hx]
  rfl

/-- Settles O35: the reception dropped, the blocks reset, and Channel 1's command discarded. -/
theorem resetRegistryEffect : Obligations.ResetRegistryEffect := by
  unfold Obligations.ResetRegistryEffect
  intro opts s ready
  let s0 := s.served .ch0 0x7F opts
  let u := s0.dropReception
  have hu : u = { s0 with
      trunk := { s.trunk with replyIn := u.trunk.replyIn }
      pool := { s.pool with mem := u.pool.mem } } := s0.dropReception_frame
  have final : exec (.resetRegistry .ch0 opts) s = .next (u.resetBlocks.discardOther.answer .ch0 .ok []) := by
    refine (command_ready ready bodyResetRegistry opts).trans (congrArg _ ?_)
    change u.resetBlocks.discardOther.complete .ch0 .ok [] = _
    exact State.complete_ok ..
  obtain ⟨hgen, hrecord, hlookup, hbuffer⟩ := u.resetBlocks_frame
  have words : (Vector.ofFn fun n : Fin 6 => ([] : List Word).getD n.val 0) = Vector.replicate 6 0 := by
    ext k hk
    simp
  refine ⟨_, final, ?_⟩
  rw [State.discardOther_eq]
  refine ⟨fun i => ⟨(hgen i).trans ?_, hrecord i⟩, hlookup, map_val_finRange 64, rfl, rfl, ?_, ?_, ?_, map_val_finRange 32,
    ?_, fun b => (hbuffer b).trans ?_, fun h => ?_, fun x b hx hb hr => ?_, ?_, ?_, rfl, ?_, ?_, ?_⟩
  · rw [hu]; rfl
  · rw [hu]; rfl
  · rw [hu]; rfl
  · rw [hu]; rfl
  · rw [hu]; rfl
  · rw [hu]; rfl
  · have e : u = s0 := State.dropReception_none h
    rw [e]
    exact ⟨rfl, rfl⟩
  · have e : u = _ := State.dropReception_some (s := s0) hx hb hr
    rw [e]
    refine ⟨rfl, fun hwf => ?_⟩
    exact State.wrote_writeBuffer (s := s0) hwf b ((dataPayloadTaken_length _ _).trans (by decide))
  · rw [hu, ← words]
    rfl
  · rw [hu]
    rfl
  · rw [hu]; rfl
  · rw [hu]; exact ready.1
  · rw [hu]; rfl

end Sys2Proof.Machine
end

section
/-! The pin reset state is sound (R198). -/

namespace Sys2Proof.Machine

theorem recordIs_reset (i : SlotNo) (p : Record → Bool) : State.reset.recordIs i p = false := by
  simp [State.recordIs, State.record_reset]

theorem findIdentity_reset (identity : List Byte) : State.reset.findIdentity identity = none :=
  allSlots_find?_eq_none.2 fun i => by simp [State.record_reset]

theorem settingsOk_reset : State.reset.SettingsOk := by
  refine ⟨by decide, by decide, by decide, by decide, fun n => ?_, by decide, by decide, by decide, rfl⟩
  rw [State.filter_reset]
  decide

theorem registryOk_reset : State.reset.RegistryOk := by
  have changeList : ∀ ch, State.reset.ChangeListOk ch := fun ch => by
    simp [State.ChangeListOk, State.port_reset, recordIs_reset, Port.atReset]
  refine ⟨⟨List.nodup_nil, fun i => ?_, le_refl _⟩, ⟨List.nodup_finRange 64, fun i => ?_⟩, ⟨List.nodup_nil, fun i => ?_⟩,
    ⟨List.nodup_nil, fun i => ?_⟩, fun a i => ?_, fun i j h => ?_, ⟨List.nodup_nil, fun c hc => nomatch hc⟩,
    changeList .ch0, changeList .ch1⟩
  · exact iff_of_false List.not_mem_nil (ne_true_of_eq_false (recordIs_reset ..))
  · exact iff_of_true (List.mem_finRange i) (by rw [State.record_reset]; rfl)
  · exact iff_of_false List.not_mem_nil (ne_true_of_eq_false (recordIs_reset ..))
  · exact iff_of_false List.not_mem_nil (ne_true_of_eq_false (recordIs_reset ..))
  · simp [recordIs_reset, State.lookup_reset]
  · rw [recordIs_reset] at h
    cases h

theorem exchangeOk_reset : State.reset.ExchangeOk :=
  ⟨rfl, rfl, fun i => by simp [State.record_reset]⟩

theorem buffersOk_reset : State.reset.BuffersOk := by
  refine ⟨⟨List.nodup_finRange 32, fun b => ?_⟩, fun i => by simp [State.record_reset], fun i b => ?_, List.nodup_nil,
    fun b => ?_, fun b => ?_, fun b => ?_⟩ <;> rw [State.buffer_reset]
  · exact iff_of_true (List.mem_finRange b) rfl
  · simp [recordIs_reset]
  · exact iff_of_false List.not_mem_nil (by decide)
  · exact iff_of_false Bool.false_ne_true (by decide)
  · decide

theorem sound_reset : State.reset.Sound :=
  ⟨State.reset_mem_wf, settingsOk_reset, fun i => by simp [State.record_reset], registryOk_reset, exchangeOk_reset,
    buffersOk_reset, by decide⟩

/-- The queue of commands and reset in are no part of what makes a state sound. -/
theorem sound_held {s : State} (h : s.Sound) (queue : List Instr) (held : Bool) :
    State.Sound { s with pending := queue, resetIn := held } := h

/-- Settles O59: the reset state block by block, and the queue and reset in beside it. -/
theorem resetIsSound : Obligations.ResetIsSound := by
  unfold Obligations.ResetIsSound
  refine ⟨sound_reset, fun s t h => ?_⟩
  cases h
  exact sound_held sound_reset s.pending true

end Sys2Proof.Machine
end

section
/-! The Poll Ring's visits, requests and pass ends (R41 to R49), and the choice of the next exchange (R82 to R87). -/

namespace Sys2Proof.Machine

variable {s : State}

/-! ### Visits -/

/-- The visit of a record: its skip count, the cursor, and poll issued (R43 to R45). -/
theorem State.visit_eq {i : SlotNo} {r : Record} (h : s.record i = some r) : s.visit i =
    ({ s with
        registry := { s.registry with slots := s.registry.slots.set i { s.slot i with
          record := some { r with skip := (visitOutcome s.poll.slowDivisor r).2 } } }
        poll := { s.poll with
          cursor := s.poll.cursor + 1
          pollIssued := s.poll.pollIssued || (visitOutcome s.poll.slowDivisor r).1 } },
      (visitOutcome s.poll.slowDivisor r).1) := by
  rw [State.visit, h]
  rfl

/-- Settles O53: the table of R44, row by row. -/
theorem visitOfAMember : Obligations.VisitOfAMember := by
  unfold Obligations.VisitOfAMember
  intro s i r h visited
  have visit : ∀ due skip, visitOutcome s.poll.slowDivisor r = (due, skip) → s.visit i = visited due skip :=
    fun due skip e => by rw [State.visit_eq h, e]
  refine ⟨fun hs => visit _ _ ?_, fun hs hc => visit _ _ ?_, fun hs hc hk => visit _ _ ?_,
    fun k hs hc hk => visit _ _ ?_, fun hs hk => visit _ _ ?_, fun k hs hk => visit _ _ ?_⟩ <;>
    simp only [visitOutcome, *]

/-- A visit steps the cursor and changes neither the Ring nor an idle. -/
theorem State.visit_poll (s : State) (i : SlotNo) : (s.visit i).1.poll =
    { s.poll with cursor := s.poll.cursor + 1, pollIssued := (s.visit i).1.poll.pollIssued } := by
  cases h : s.record i with
  | none => rw [State.visit, h]; rfl
  | some r => rw [State.visit_eq h]

/-! ### Requests and pass ends -/

/-- The invite countdown steps, and an invitation becomes pending where it reaches 0 (R49). -/
theorem PollRing.stepCountdown_eq {p : PollRing} {interval : Nat} (h0 : interval = 0 → p.countdown = 0)
    (h1 : interval ≠ 0 → 1 ≤ p.countdown) : p.stepCountdown interval =
      { p with
        countdown := if interval ≠ 0 ∧ p.countdown = 1 then interval else p.countdown - 1
        invitePending := if interval ≠ 0 ∧ p.countdown = 1 then true else p.invitePending } := by
  rw [PollRing.stepCountdown]
  by_cases hi : interval = 0
  · simp [hi, h0 hi]
  · have hc := h1 hi
    by_cases hr : p.countdown = 1
    · simp [hi, hr]
    · have ne : p.countdown - 1 ≠ 0 := by omega
      simp [hi, hr, ne]

/-- Settles O52: the idle, the Ring's end and the visit; and the invite countdown by its value. -/
theorem requestsAndPassEnds : Obligations.RequestsAndPassEnds := by
  unfold Obligations.RequestsAndPassEnds
  refine ⟨fun s => ⟨fun hidle => if_pos hidle, fun hidle hend => ?_, fun hidle i hi => ?_⟩, fun s h0 h1 => ?_⟩
  · rw [State.requestMember, if_neg (by simp [hidle]), List.drop_of_length_le hend]
    rfl
  · obtain ⟨hlt, hget⟩ := List.getElem?_eq_some_iff.1 hi
    have hdrop : s.poll.ring.drop s.poll.cursor = i :: s.poll.ring.drop (s.poll.cursor + 1) := by
      rw [List.drop_eq_getElem_cons hlt, hget]
    have hpoll := s.visit_poll i
    have request : s.requestMember = if (s.visit i).2 = true then
        (if s.poll.ring.drop (s.poll.cursor + 1) = [] then (s.visit i).1.endPass else (s.visit i).1, .slot i)
        else (s.visit i).1.visitFrom (s.poll.ring.drop (s.poll.cursor + 1)) := by
      rw [State.requestMember, if_neg (by simp [hidle]), hdrop, State.visitFrom]
    intro v
    refine ⟨fun hdue => request.trans ((if_pos hdue).trans ?_), fun hdue =>
      request.trans ((if_neg (ne_true_of_eq_false hdue)).trans ?_)⟩
    · have atEnd : s.poll.ring.drop (s.poll.cursor + 1) = [] ↔ v.1.poll.cursor = s.poll.ring.length := by
        rw [show v.1.poll = _ from hpoll, List.drop_eq_nil_iff]
        dsimp only
        omega
      rw [if_congr atEnd rfl rfl]
    · rw [State.requestMember, if_neg (by rw [show v.1.poll = _ from hpoll]; simp [hidle]),
        show v.1.poll = _ from hpoll]
  · exact congrArg (fun p => { s with poll := p }) (PollRing.stepCountdown_eq (p := { s.poll with
      cursor := 0
      passCount := s.poll.passCount + 1
      idle := if s.poll.pollIssued then s.poll.idle else some Config.quantum
      pollIssued := false }) h0 h1)

/-! ### The choice of the next exchange -/

theorem txTime_eq (c : LineConfig) (frame : List Byte) : txTime c frame =
    (if c.clock = .internal then 8 + 8 * frame.length else 8) * (16 * c.divisor * 25) := by
  unfold txTime
  cases c.clock <;> rfl

/-- A frame begins to be sent (R61, R71, R80). -/
theorem State.beginExchange_eq (s : State) (x : Exchange) (frame : List Byte) : s.beginExchange x frame =
    { s with trunk := { s.trunk with
      line := .sending, current := some x, frame := frame, receiving := false, hunt := Hunt.start
      txTimer := some ((if s.trunk.config.clock = .internal then 8 + 8 * frame.length else 8)
        * (16 * s.trunk.config.divisor * 25))
      replyTimer := none, guardTimer := none } } := by
  rw [State.beginExchange, State.updTrunk]
  dsimp only
  rw [txTime_eq]

/-- A pending invitation may be sent unless 8 candidates are all UNDECIDED (R82 step 3). -/
theorem State.inviteAllowed_iff (s : State) : s.inviteAllowed = true ↔ s.poll.invitePending = true
    ∧ ¬ (8 ≤ s.adm.candidates.length ∧ ∀ c ∈ s.adm.candidates, c.disposition = .undecided) := by
  simp only [State.inviteAllowed, Bool.and_eq_true, Bool.not_eq_true', Bool.and_eq_false_iff, decide_eq_false_iff_not,
    List.all_eq_false, not_and, not_forall, beq_iff_eq]
  refine and_congr_right fun _ => ⟨fun h ge => ?_, fun h => ?_⟩
  · obtain ⟨c, hc, hd⟩ := h.resolve_left (not_not.2 ge)
    exact ⟨c, hc, hd⟩
  · by_cases ge : 8 ≤ s.adm.candidates.length
    · obtain ⟨c, hc, hd⟩ := h ge
      exact .inr ⟨c, hc, hd⟩
    · exact .inl ge

theorem seqByte_eq (ns nr : BitVec 3) : seqByte ns nr = BitVec.ofNat 8 (16 * ns.toNat + nr.toNat) := by
  revert ns nr
  decide

/-- The receive reservation takes the head of the free buffer list, if there is one (R87). -/
theorem State.reserve_eq (s : State) : s.reserve =
    (match s.pool.free with
      | [] => s
      | b :: rest => { s with pool := { s.pool with
          free := rest, buffers := s.pool.buffers.set b { s.buffer b with place := .reserved } } },
     s.pool.free.head?) := by
  rw [State.reserve]
  cases s.pool.free <;> rfl

theorem roomFlags_head? (free : List BufNo) : roomFlags free.head? = if free = [] then 1 else 0 := by
  cases free <;> rfl

theorem State.reserve_buffer_length (s : State) (b : BufNo) :
    (s.reserve.1.buffer b).length = (s.buffer b).length := by
  rw [State.reserve]
  cases s.pool.free with
  | nil => rfl
  | cons c rest =>
    refine (congrArg Buffer.length (State.buffer_setPlace _ c b .reserved)).trans ?_
    split
    · next e => subst e; rfl
    · rfl

theorem State.reserve_bufferBytes (s : State) (b : BufNo) (n : Nat) :
    s.reserve.1.bufferBytes b n = s.bufferBytes b n := by
  rw [State.reserve]
  cases s.pool.free <;> rfl

theorem State.reserve_handle (s : State) (i : SlotNo) : s.reserve.1.handle i = s.handle i := by
  rw [State.reserve]
  cases s.pool.free <;> rfl

/-- A POLL, or a DATA with the head of the outbound queue where no hold is present, after the receive reservation
(R87, R119). -/
theorem State.beginPollData_eq (s : State) (i : SlotNo) (r : Record) : s.beginPollData i r =
    match r.outq, r.hold with
    | b :: _, none =>
      s.reserve.1.beginExchange ⟨.data, some (s.handle i), some r.sendSeq, some b, s.pool.free.head?⟩
        (dataFrame r s.pool.free.head? (s.bufferBytes b (s.buffer b).length))
    | _, _ =>
      s.reserve.1.beginExchange ⟨.poll, some (s.handle i), some r.sendSeq, none, s.pool.free.head?⟩
        (pollFrame r s.pool.free.head?) := by
  have room : s.reserve.2 = s.pool.free.head? := by rw [State.reserve_eq]
  unfold State.beginPollData
  simp only [room, State.reserve_buffer_length, State.reserve_bufferBytes] <;>
    cases r.outq with
    | nil => rfl
    | cons b rest => cases r.hold <;> rfl

/-- The choice where nothing waits to be dismissed, admitted or invited (R82 step 4). -/
theorem State.chooseWith_member (k : State → State) (hd : s.registry.dismissQueue = [])
    (ha : s.registry.admitQueue = []) (hi : ¬ s.inviteAllowed = true) : s.chooseWith k =
      match s.requestMember.2 with
      | .slot i =>
        match s.requestMember.1.record i with
        | some r => s.requestMember.1.beginPollData i r
        | none => s.requestMember.1
      | .passEnded => k s.requestMember.1
      | .idle => s.requestMember.1 := by
  rw [State.chooseWith, hd, ha]
  exact if_neg hi

/-- Settles O51: the order of the choice, and the frame of each kind. -/
theorem choiceOfTheNextExchange : Obligations.ChoiceOfTheNextExchange := by
  unfold Obligations.ChoiceOfTheNextExchange
  refine fun s => ⟨rfl, ?_⟩
  intro sends full none4
  have sends_eq : ∀ u x frame, sends u x frame = u.beginExchange x frame := fun u x frame =>
    (u.beginExchange_eq x frame).symm
  have member : none4 → s.choose = _ := fun h =>
    State.chooseWith_member _ h.1 h.2.1 (mt s.inviteAllowed_iff.1 h.2.2)
  refine ⟨fun i rest r hd hr => ?_, fun i rest r hd ha hr => ?_, fun hd ha hp hfull => ?_, fun h t ht => ?_,
    fun h t ht => ?_, fun h t i r ht hr => ?_⟩
  · rw [sends_eq, State.choose, State.chooseWith, hd]
    dsimp only
    rw [hr]
    rfl
  · rw [sends_eq, State.choose, State.chooseWith, hd, ha]
    dsimp only
    rw [hr]
    rfl
  · rw [State.choose, State.chooseWith, hd, ha]
    refine (if_pos (s.inviteAllowed_iff.2 ⟨hp, hfull⟩)).trans ?_
    rw [State.beginInvite, State.beginExchange_eq]
    rfl
  · rw [member h, ht]
  · rw [member h, ht]
  · intro room sequence t1
    have reserved : t.reserve.1 = t1 := congrArg Prod.fst t.reserve_eq
    have poll : pollFrame r t.pool.free.head? = frameBytes r.address 1 room sequence [] := by
      rw [pollFrame, roomFlags_head?, seqByte_eq]
    have data : ∀ message, dataFrame r t.pool.free.head? message = frameBytes r.address 2 room sequence message :=
      fun message => by rw [dataFrame, roomFlags_head?, seqByte_eq]
    have choice : s.choose = t.beginPollData i r := by
      rw [member h, ht]
      dsimp only
      rw [hr]
    simp only [choice, State.beginPollData_eq, reserved, poll, data]
    cases r.outq with
    | nil => exact (sends_eq ..).symm
    | cons b rest => cases r.hold <;> exact (sends_eq ..).symm

end Sys2Proof.Machine
end

section
/-! The guard (R73, R81, R101, R109), the receiver outside a reply window (R67), the expiry of holds and idles (R47, R122),
and the windows that open (R63, R84). -/

namespace Sys2Proof.Machine

variable {s : State}

/-! ### The guard -/

/-- The guard starts, with its target released (R73, R81). -/
theorem State.toGuard_eq (s : State) : s.toGuard = { s with trunk := { s.trunk with
    line := .guard
    current := s.trunk.current.map Exchange.released
    frame := []
    receiving := false
    txTimer := none
    replyTimer := none
    guardTimer := some (s.trunk.config.guardTime * (16 * s.trunk.config.divisor * 25)) } } := rfl

/-- Settles O48: the guard's parts, and its three ends. -/
theorem guardStartsAndRunsOut : Obligations.GuardStartsAndRunsOut := by
  unfold Obligations.GuardStartsAndRunsOut
  refine ⟨State.toGuard_eq, fun s running hline => ?_⟩
  have taken : exec .guardExpiry s = .next s.guardRunsOut :=
    (unlessReset_running _ running).trans (congrArg _ (if_pos hline))
  refine taken.trans (congrArg _ ?_)
  rw [State.guardRunsOut]
  cases hd : s.trunk.drain with
  | none => rfl
  | some d =>
    refine (State.endDrain_eq s.toOff endedDrained).trans ?_
    rw [show s.toOff.trunk.drain = some d from hd]
    rfl

/-! ### The receiver outside a reply window -/

/-- The receiver hears one bit (R67). -/
def State.hearBit (s : State) (b : Bool) : State :=
  let s1 := s.updTrunk fun t => { t with hunt := (s.trunk.hunt.hear b).1 }
  if (s.trunk.hunt.hear b).2 then s1.updCounters fun c => { c with stray := countUp c.stray } else s1

theorem State.hearBits_eq_foldl (bits : List Bool) : ∀ s : State, s.hearBits bits = bits.foldl State.hearBit s := by
  induction bits with
  | nil => exact fun s => rfl
  | cons b bits ih => exact fun s => ih (s.hearBit b)

theorem Hunt.hear_seeking (last : Word) (b : Bool) : (Hunt.seeking last).hear b =
    if BitVec.cons b (last.extractLsb' 1 15) = markBits then (.header 0 0, true)
    else (.seeking (BitVec.cons b (last.extractLsb' 1 15)), false) := rfl

theorem Hunt.hear_header (taken : Nat) (last : Byte) (b : Bool) : (Hunt.header taken last).hear b =
    (if taken < 31 then .header (taken + 1) (BitVec.cons b (last.extractLsb' 1 7))
      else if (BitVec.cons b (last.extractLsb' 1 7)).toNat ≤ 120 then
        .discarding (8 * ((BitVec.cons b (last.extractLsb' 1 7)).toNat + 2))
      else Hunt.start, false) := by
  rw [Hunt.hear, shiftIn]
  generalize BitVec.cons b (last.extractLsb' 1 7) = now
  by_cases ht : taken < 31
  · rw [if_pos (by omega), if_pos ht]
  · rw [if_neg (by omega), if_neg ht]
    by_cases hn : now.toNat ≤ 120
    · rw [if_neg (by omega), if_pos hn, Nat.mul_add]
    · rw [if_pos (by omega), if_neg hn]

/-- One bit heard, by where the receiver stands (R67). -/
theorem State.hearBit_eq (s : State) (b : Bool) : s.hearBit b =
    match s.trunk.hunt with
    | .seeking last =>
      if BitVec.cons b (last.extractLsb' 1 15) = markBits then
        { s with trunk := { s.trunk with
          hunt := .header 0 0, counters := { s.trunk.counters with stray := countUp s.trunk.counters.stray } } }
      else { s with trunk := { s.trunk with hunt := .seeking (BitVec.cons b (last.extractLsb' 1 15)) } }
    | .header taken last => { s with trunk := { s.trunk with
        hunt := if taken < 31 then .header (taken + 1) (BitVec.cons b (last.extractLsb' 1 7))
          else if (BitVec.cons b (last.extractLsb' 1 7)).toNat ≤ 120 then
            .discarding (8 * ((BitVec.cons b (last.extractLsb' 1 7)).toNat + 2))
          else Hunt.start } }
    | .discarding left => { s with trunk := { s.trunk with
        hunt := if 1 < left then .discarding (left - 1) else Hunt.start } } := by
  rw [State.hearBit]
  cases hh : s.trunk.hunt with
  | seeking last =>
    rw [Hunt.hear_seeking]
    dsimp only
    split <;> rfl
  | header taken last => rw [Hunt.hear_header]; rfl
  | discarding left => rfl

/-- A present hold in its last clock period (R122). -/
theorem holdDue_some (t : Nat) : holdDue (some t) = true ↔ t ≤ 25 := by
  exact decide_eq_true_iff (p := t ≤ 25)

/-- Settles O47: each bit by where the receiver stands, the hold by its time, and the idle. -/
theorem strayHoldAndIdleEvents : Obligations.StrayHoldAndIdleEvents := by
  unfold Obligations.StrayHoldAndIdleEvents
  intro s running hunting hears watches
  have heard : ∀ u b, hears u b = u.hearBit b := by
    intro u b
    rw [State.hearBit_eq]
    unfold hears hunting
    cases u.trunk.hunt with
    | seeking last => rfl
    | header taken last =>
      dsimp only
      generalize BitVec.cons b (last.extractLsb' 1 7) = now
      split
      · rfl
      · split <;> rfl
    | discarding left => rfl
  refine ⟨fun bits rest hin => ?_, fun hin => ?_, fun i r t hr hh => ?_, fun hidle => ?_⟩
  · intro s1
    rw [show exec .strayFrame s = execStrayFrame s from rfl, execStrayFrame, unlessReset_running _ running, hin]
    refine congrArg _ ?_
    have rest_eq : (s.updTrunk fun t => { t with lineIn := t.lineIn.tail }) = s1 := by
      rw [State.updTrunk, hin]
      rfl
    have fold : s1.hearBits bits = bits.foldl hears s1 :=
      (s1.hearBits_eq_foldl bits).trans (congrArg (fun f => bits.foldl f s1) (funext₂ fun u b => (heard u b).symm))
    rw [rest_eq, ← fold]
    unfold watches
    cases s.trunk.line <;> simp
  · rw [show exec .strayFrame s = execStrayFrame s from rfl, execStrayFrame, unlessReset_running _ running, hin]
    refine congrArg _ ?_
    have unheard : (s.updTrunk fun t => { t with lineIn := t.lineIn.tail }) = s := by
      have tail : s.trunk.lineIn.tail = s.trunk.lineIn := by rw [hin]; rfl
      dsimp only [State.updTrunk]
      rw [tail]
    rw [unheard]
    have pass : s.passStray = match s.trunk.hunt with
      | .seeking _ => { s with trunk := { s.trunk with
          hunt := .seeking 0xFFFF
          counters := { s.trunk.counters with stray := min 65535 (s.trunk.counters.stray + 1) } } }
      | .header _ _ | .discarding _ => s := by
      rw [State.passStray]
      cases s.trunk.hunt <;> rfl
    rw [pass]
    unfold watches
    cases s.trunk.line <;> cases s.trunk.hunt <;> simp
  · rw [show exec (.holdExpiry i) s = execHoldExpiry i s from rfl, execHoldExpiry, unlessReset_running _ running, hr]
    dsimp only
    rw [hh, if_congr (holdDue_some t) rfl rfl, State.endHold, State.updRecord_some _ _ hr]
  · refine (unlessReset_running _ running).trans (congrArg _ (if_pos hidle))

/-! ### Windows that open -/

/-- The phase of a current exchange. -/
theorem State.inPhase_eq {x : Exchange} (hx : s.trunk.current = some x) (line : LineState) (kinds : List ExchangeKind) :
    s.inPhase line kinds = (decide (s.trunk.line = line) && decide (x.kind ∈ kinds)) := by
  simp [State.inPhase, State.exchangeKind, hx]

/-- A DISMISS exchange's frame is sent, or cut short: the record leaves the Dismissal Queue and, RETIRING and released,
enters RETIRED (R62, R84). -/
theorem State.dismissOutcome_eq {x : Exchange} {h : Handle} {r : Record} (hx : s.trunk.current = some x)
    (ht : x.target = some h) (hr : s.record h.slot = some r) (hs : r.state = .retiring) : s.dismissOutcome =
      (State.enterRetired
        { s with
          registry := { s.registry with
            slots := s.registry.slots.set h.slot
              { s.slot h.slot with record := some { r with dismissPending := some false } }
            dismissQueue := s.registry.dismissQueue.erase h.slot }
          trunk := { s.trunk with current := some x.released } } h.slot).toGuard := by
  obtain ⟨kind, target, ns, ob, rs⟩ := x
  dsimp only at ht
  subst ht
  rw [State.dismissOutcome, hx]
  dsimp only
  have hr1 : (s.removeDismiss h.slot).record h.slot = some r := hr
  rw [State.updRecord_some _ _ hr1, if_pos hs]
  refine congrArg State.toGuard ?_
  refine (State.settleRetiring_of _ h.slot { r with dismissPending := some false } ?_ hs rfl ?_).trans ?_
  · exact State.record_setRecord_same ..
  · simp [State.holds, State.releaseTarget, hx]
  · refine congrArg (State.enterRetired · h.slot) ?_
    rw [State.releaseTarget, State.setRecord_trunk, State.removeDismiss_trunk, hx]
    rfl

/-- Settles O36: the windows by the kind of exchange, and a DISMISS sent. -/
theorem framesSentAndReceptionsBegun : Obligations.FramesSentAndReceptionsBegun := by
  unfold Obligations.FramesSentAndReceptionsBegun
  refine ⟨fun s x running hx hk => ⟨fun hline => ?_, fun hline hopen => ?_⟩,
    fun s h r x running hline hx hk ht hr hs => ?_⟩
  · have phase : s.inPhase .sending [.poll, .data, .admitExchange, .invite] = true := by
      rw [State.inPhase_eq hx, hline]
      cases hkind : x.kind <;> simp_all
    rw [show exec .frameSent s = execFrameSent s from rfl, execFrameSent, unlessReset_running _ running, if_pos phase,
      State.openWindow, State.exchangeKind, hx]
    have window : windowTime s.trunk.config x.kind =
        18432 * if x.kind = .invite then s.trunk.config.joinWindow else s.trunk.config.replyTimeout := by
      cases x.kind <;> exact Nat.mul_comm ..
    rw [← window]
    rfl
  · rw [show exec .replyFirstSpaceBit s = execReplyFirstSpaceBit s from rfl, execReplyFirstSpaceBit,
      unlessReset_running _ running, if_pos hopen, State.inPhase_eq hx, State.inPhase_eq hx, hline]
    cases hkind : x.kind
    case dismiss => exact absurd hkind hk
    all_goals rfl
  · rw [show exec .dismissSent s = execDismissSent s from rfl, execDismissSent, unlessReset_running _ running,
      State.inPhase_eq hx, hline, hk, if_pos (by decide), State.dismissOutcome_eq hx ht hr hs]

end Sys2Proof.Machine
end

section
/-! The evaluation of a JOIN (R134 to R140), and the join window (R66, R132). -/

namespace Sys2Proof.Machine

variable {s : State}

/-! ### Filters -/

theorem Filter.positionMatches_iff (f : Filter) (identity : List Byte) (n : Fin 16) :
    f.positionMatches identity n = true ↔
      (n.val < f.minLength → f.compare.getLsbD n.val = true → identity[n.val]? = some f.pattern[n]) := by
  simp only [Filter.positionMatches, Bool.or_eq_true, Bool.not_eq_true', Bool.and_eq_false_iff, decide_eq_false_iff_not,
    beq_iff_eq]
  cases f.compare.getLsbD n.val <;> by_cases h1 : n.val < f.minLength <;> simp [h1]

/-- An identity long enough matches where every compared byte agrees (R139). -/
theorem Filter.matchesId_iff (f : Filter) (identity : List Byte) : f.matchesId identity = true ↔
    f.minLength ≤ identity.length
      ∧ ∀ n : Fin 16, n.val < f.minLength → f.compare.getLsbD n.val = true → identity.getD n.val 0 = f.pattern[n] := by
  simp only [Filter.matchesId, Bool.and_eq_true, decide_eq_true_eq, List.all_eq_true, List.mem_finRange, true_imp_iff,
    Filter.positionMatches_iff]
  refine and_congr_right fun hlen => forall_congr' fun n => forall_congr' fun hn => ?_
  have h : n.val < identity.length := by omega
  simp [h]

theorem State.filters_toList (s : State) : s.adm.filters.toList = (List.finRange 8).map fun n => s.adm.filters[n] := by
  apply List.ext_getElem
  · simp
  · intro k h1 h2
    simp

/-- The search of the Filter Table finds the first enabled filter that an identity matches (R140). -/
theorem State.decidingFilter_eq_some {identity : List Byte} {n : Fin 8}
    (hn : s.adm.filters[n].enabled = true ∧ s.adm.filters[n].matchesId identity = true)
    (hlow : ∀ m < n, ¬ (s.adm.filters[m].enabled = true ∧ s.adm.filters[m].matchesId identity = true)) :
    s.decidingFilter identity = some s.adm.filters[n] := by
  have found : (List.finRange 8).find? (fun m => s.adm.filters[m].enabled && s.adm.filters[m].matchesId identity) =
      some n := by
    rw [← Fin.find?_eq_find?_finRange, Fin.find?_eq_some_iff]
    exact ⟨by simpa using hn, fun m hm => by simpa using hlow m hm⟩
  rw [State.decidingFilter, State.filters_toList, List.find?_map]
  exact congrArg (Option.map _) found

theorem State.decidingFilter_eq_none {identity : List Byte}
    (h : ∀ n : Fin 8, ¬ (s.adm.filters[n].enabled = true ∧ s.adm.filters[n].matchesId identity = true)) :
    s.decidingFilter identity = none := by
  rw [State.decidingFilter, State.filters_toList, List.find?_eq_none]
  intro f hf
  obtain ⟨n, -, rfl⟩ := List.mem_map.1 hf
  simpa using h n

/-! ### The cases -/

theorem State.attemptOrDefer_eq (s : State) (identity : List Byte) (cls : Class) (owner : Channel) :
    s.attemptOrDefer identity cls owner =
      (s.attempt identity cls owner).getD (s.addCandidate identity (.deferred cls owner)) := by
  rw [State.attemptOrDefer]
  cases s.attempt identity cls owner <;> rfl

/-- The entry that a JOIN is judged against first (R134). -/
def State.heardCandidate (s : State) (identity : List Byte) : Option Candidate :=
  s.adm.candidates.find? fun c => decide (c.identity = identity)

theorem State.evaluateJoin_eq (s : State) (identity : List Byte) : s.evaluateJoin identity =
    match s.heardCandidate identity with
    | some c =>
      match c.disposition with
      | .undecided => s
      | .deferred cls owner => (s.attempt identity cls owner).getD s
    | none =>
      match s.findIdentity identity with
      | some i =>
        match s.record i with
        | some r =>
          if r.state.isMember = true then
            ((s.enterRetirement i .rejoined false).attempt identity r.cls r.owner).getD
              ((s.enterRetirement i .rejoined false).addCandidate identity (.deferred r.cls r.owner))
          else s
        | none => s
      | none => s.filterJoin identity := by
  have same : (fun c : Candidate => c.identity == identity) = fun c => decide (c.identity = identity) :=
    funext fun c => beq_eq_decide _ _
  rw [State.evaluateJoin, same, State.heardCandidate]
  cases s.adm.candidates.find? fun c => decide (c.identity = identity) with
  | some c =>
    dsimp only
    cases c.disposition with
    | undecided => rfl
    | deferred cls owner =>
      dsimp only
      cases s.attempt identity cls owner <;> rfl
  | none =>
    dsimp only
    cases s.findIdentity identity with
    | none => rfl
    | some i =>
      dsimp only
      cases s.record i with
      | none => rfl
      | some r =>
        dsimp only
        rw [State.rejoin, State.attemptOrDefer_eq]

theorem State.filterJoin_some {identity : List Byte} {f : Filter} (h : s.decidingFilter identity = some f) :
    s.filterJoin identity =
      match f.action with
      | .admitIt => s.attemptOrDefer identity f.cls f.owner
      | .refuse => s.updCounters fun c => { c with refusedJoin := countUp c.refusedJoin } := by
  rw [State.filterJoin, h] <;> rfl

/-- Settles O42: the first case that applies, and the compared positions of a filter. -/
theorem joinEvaluationCases : Obligations.JoinEvaluationCases := by
  unfold Obligations.JoinEvaluationCases
  refine ⟨fun s identity => ?_, fun f identity _ => f.matchesId_iff identity⟩
  intro attemptOr
  refine ⟨fun c hc => ?_, fun hnew => ?_⟩
  · rw [State.evaluateJoin_eq, State.heardCandidate, hc] <;> rfl
  · have unheard : s.heardCandidate identity = none := List.find?_eq_none.2 fun c hc => by simpa using hnew c hc
    refine ⟨fun i r hi hr => ?_, fun hi => ⟨fun n he hm hlow => ?_, fun hno => ?_⟩⟩ <;>
      rw [State.evaluateJoin_eq, unheard] <;> dsimp only <;> rw [hi]
    · dsimp only
      rw [hr]
    · rw [State.filterJoin_some (State.decidingFilter_eq_some ⟨he, hm⟩ hlow)]
      cases s.adm.filters[n].action with
      | refuse => rfl
      | admitIt => exact State.attemptOrDefer_eq ..
    · rw [State.filterJoin, State.decidingFilter_eq_none hno]

end Sys2Proof.Machine
end

section
/-! The join window of an INVITE (R66, R86, R132). -/

namespace Sys2Proof.Machine

variable {s : State}

/-- The lapse step as R132 step 2 says it. -/
theorem State.stepLapses_eq (s : State) (heard : Option (List Byte)) : s.stepLapses heard =
    { s with adm := { s.adm with
      candidates :=
        ((s.adm.candidates.map fun c => { c with lapse := if heard = some c.identity then c.lapse else c.lapse + 1 }).filter
          fun c => c.lapse < s.adm.lapseLimit).map
            fun c => { c with lapse := if heard = some c.identity then 0 else c.lapse } } } := by
  rw [← Candidate.lapseStep_filterMap]
  rfl

/-- A frame of a join window judged invalid steps its counter (R66, R74). -/
theorem State.updCounters_countJoin (s : State) (e : FrameError) : (s.updCounters fun c => c.countJoin e) =
    { s with trunk := { s.trunk with
      counters :=
        match e with
        | .opening | .check => { s.trunk.counters with joinCollision := min 65535 (s.trunk.counters.joinCollision + 1) }
        | .format => { s.trunk.counters with format := min 65535 (s.trunk.counters.format + 1) }
        | .stray => { s.trunk.counters with stray := min 65535 (s.trunk.counters.stray + 1) }
        | .unexpected => { s.trunk.counters with unexpected := min 65535 (s.trunk.counters.unexpected + 1) } } } := by
  cases e <;> rfl

/-- JOIN_FRAME in an open join window (R66). -/
theorem exec_joinFrame {x : Exchange} (running : s.resetIn = false) (hline : s.trunk.line = .awaiting)
    (hx : s.trunk.current = some x) (hk : x.kind = .invite) (hopen : s.windowOpen = true) (bytes : List Byte) :
    exec (.joinFrame bytes) s = .next (s.joinEnds bytes false) := by
  rw [show exec (.joinFrame bytes) s = execJoinFrame bytes s from rfl, execJoinFrame, unlessReset_running _ running,
    State.inPhase_eq hx, hline, hk, hopen]
  rfl

theorem State.joinEnds_invalid {bytes : List Byte} {lost : Bool} {e : FrameError}
    (h : judge .invite (fun a => decide (a = 0)) (receive bytes lost) = .invalid e) : s.joinEnds bytes lost =
      if s.trunk.replyTimer = some 0 then ((s.updCounters fun c => c.countJoin e).stepLapses none).toGuard
      else (s.updCounters fun c => c.countJoin e).updTrunk fun t => { t with receiving := false } := by
  have expired : s.joinExpired = true ↔ s.trunk.replyTimer = some 0 := decide_eq_true_iff
  rw [State.joinEnds, h]
  exact if_congr expired rfl rfl

/-- Settles O41: the verdict on the frame, and the two ends of the window's time. -/
theorem joinWindowOutcomes : Obligations.JoinWindowOutcomes := by
  unfold Obligations.JoinWindowOutcomes
  intro s x running hline hx hk n verdict lapsed
  have lapses : ∀ u heard, u.stepLapses heard = lapsed u heard := State.stepLapses_eq
  refine ⟨fun bytes v identity hopen hv hj => ?_, fun bytes e hopen hv => ?_, fun hr => ?_, fun hr => ?_⟩
  · rw [exec_joinFrame running hline hx hk hopen, State.joinEnds, show judge .invite _ _ = _ from hv]
    dsimp only
    rw [hj]
    dsimp only
    rw [State.endInvitation, lapses]
    rfl
  · intro s1
    rw [exec_joinFrame running hline hx hk hopen, State.joinEnds_invalid hv, lapses, State.updCounters_countJoin]
    rfl
  all_goals
    rw [show exec .joinWindowExpiry s = execJoinWindowExpiry s from rfl, execJoinWindowExpiry,
      unlessReset_running _ running, State.inPhase_eq hx, hline, hk, hr]
  · exact congrArg (fun u : State => Host.Outcome.next u.toGuard) (lapses s none)
  · rfl

end Sys2Proof.Machine
end

section
/-! The outcomes of POLL and DATA for the target's record, each step as a touch of that record (R17, R91 to R99, R116 to
R118). -/

namespace Sys2Proof.Machine

variable {s : State} {i : SlotNo} {r : Record}

/-! ### Steps on a record -/

/-- A record's change in the state where it stands, followed by a step that is itself a touch. -/
theorem State.touch_then {r' r'' : Record} {bs cs : List BufNo} {f : State → State}
    (hf : ∀ t : State, t.record i = some r' → t.trunk = s.trunk → t.poll = s.poll → f t = t.touch i r' r'' cs)
    (h : r.Follows r') (k : r'.Follows r'') : f (s.touch i r r' bs) = s.touch i r r'' (bs ++ cs) := by
  rw [hf _ (State.record_touch_same ..) (State.touch_trunk ..) (State.touch_poll ..), State.touch_touch i h k]

theorem State.updRecord_eq_touch (h : s.record i = some r) (f : Record → Record) (hr : (f r).reasons = r.reasons) :
    s.updRecord i f = s.touch i r (f r) [] := by
  rw [State.updRecord_some _ f h, State.setRecord_eq_touch i hr]

/-- A record changed, and a reason posted to it. -/
theorem State.setRecord_post (i : SlotNo) {r r' : Record} (hr : r'.reasons = r.reasons) (ho : r'.owner = r.owner)
    (hs : r'.state ≠ .retired) (why : Reason) :
    (s.setRecord i (some r')).post i why = s.touch i r (r'.addReason why) [] := by
  rw [State.setRecord_eq_touch i hr]
  exact State.touch_post i [] why ⟨ho, fun h => hr ▸ h⟩ hs

/-- A message finished with: acknowledged, or abandoned (R91, R92). -/
theorem State.finishMessage_eq_touch {b : BufNo} (h : s.record i = some r) (hs : r.state ≠ .retired) (hb : b ∈ r.outq)
    (why : Reason) : s.finishMessage i b why = s.touch i r ((r.finishHead b).addReason why) [b] := by
  have f : r.Follows (r.finishHead b) := ⟨rfl, id⟩
  rw [State.finishMessage, h]
  dsimp only
  rw [if_pos hb, State.setRecord_eq_touch (r := r) (r' := r.finishHead b) i rfl, State.touch_freeBuffer,
    State.touch_post i _ why f hs]
  rfl

/-- The buffer that an unsuccessful attempt gives back: at the retry limit its message is abandoned (R92). -/
def Record.abandons (r : Record) (retryLimit : Nat) (b : BufNo) : List BufNo :=
  if retryLimit ≤ r.headAttempts.getD 0 + 1 then [b] else []

theorem State.countAttempt_eq_touch {b : BufNo} (h : s.record i = some r) (hs : r.state ≠ .retired) (hb : b ∈ r.outq) :
    s.countAttempt i b = s.touch i r (r.unacknowledged s.trunk.health.retryLimit b)
      (r.abandons s.trunk.health.retryLimit b) := by
  rw [State.countAttempt, h]
  dsimp only
  rw [if_pos hb, Record.unacknowledged, Record.abandons]
  have tried : s.setRecord i (some { r with
      headAttempts := some (r.headAttempts.getD 0 + 1), retransmissions := satInc 65535 r.retransmissions }) =
      s.touch i r { r with
        headAttempts := some (r.headAttempts.getD 0 + 1), retransmissions := satInc 65535 r.retransmissions } [] :=
    State.setRecord_eq_touch i rfl
  rw [tried]
  by_cases hl : s.trunk.health.retryLimit ≤ r.headAttempts.getD 0 + 1
  · rw [if_pos hl, if_pos hl, if_pos hl]
    refine State.touch_then (f := fun t => t.finishMessage i b .undelivered) (fun t ht _ _ => ?_) ?_ ?_
    · exact State.finishMessage_eq_touch ht hs hb .undelivered
    · exact ⟨rfl, id⟩
    · exact ⟨rfl, fun h => absurd h (Reason.undelivered.bit_or_ne_zero _)⟩
  · rw [if_neg hl, if_neg hl, if_neg hl]
    rfl

/-- A SILENT record recovers (R17). -/
theorem State.recover_eq_touch (h : s.record i = some r) (hs : r.state = .silent) :
    s.recover i = s.touch i r (r.recovers s.poll.slowDivisor) [] := by
  have skip : (match r.cls with
      | .fast => 0
      | .slow => s.poll.slowDivisor - 1) = if r.cls = .fast then 0 else s.poll.slowDivisor - 1 := by
    cases r.cls <;> rfl
  have active : s.updRecord i (fun r => { r with
      state := .active, missCount := some 0, failedProbes := none
      skip := some (match r.cls with
        | .fast => 0
        | .slow => s.poll.slowDivisor - 1) }) = s.setRecord i (some { r with
      state := .active, missCount := some 0, failedProbes := none
      skip := some (if r.cls = .fast then 0 else s.poll.slowDivisor - 1) }) :=
    (State.updRecord_some _ _ h).trans (congrArg (fun n => s.setRecord i (some { r with
      state := .active, missCount := some 0, failedProbes := none, skip := some n })) skip)
  refine (congrArg (State.post · i .recovered) active).trans ?_
  rw [Record.recovers, if_pos hs]
  exact State.setRecord_post i rfl rfl (by simp) .recovered

theorem State.recovers_eq_touch (h : s.record i = some r) :
    (if r.state = .silent then s.recover i else s) = s.touch i r (r.recovers s.poll.slowDivisor) [] := by
  by_cases hs : r.state = .silent
  · rw [if_pos hs, State.recover_eq_touch h hs]
  · rw [if_neg hs, Record.recovers, if_neg hs, State.touch_self h, State.freeAll_nil]

/-- A miss counted for the record's state (R16, R97). -/
theorem State.countMiss_eq_touch (h : s.record i = some r) :
    s.countMiss i = s.touch i r (r.counted s.trunk.health.silenceThreshold) [] := by
  rw [State.countMiss, h, Record.counted]
  dsimp only
  cases hs : r.state
  case active =>
    dsimp only
    by_cases hm : s.trunk.health.silenceThreshold ≤ satInc 15 (r.missCount.getD 0)
    · exact (if_pos hm).trans ((State.setRecord_post i rfl rfl (by simp) .silent).trans
        (congrArg (s.touch i r · []) (if_pos hm).symm))
    · exact (if_neg hm).trans ((State.setRecord_eq_touch i rfl).trans (congrArg (s.touch i r · []) (if_neg hm).symm))
  case silent | suspended => exact State.setRecord_eq_touch i rfl
  all_goals exact (State.touch_self h []).symm

/-- A buffer that a delivery did not take goes back (R95). -/
theorem State.freeReserved_eq (s : State) (x : Exchange) : s.freeReserved x = s.freeAll x.reserved.toList := by
  rw [State.freeReserved]
  cases x.reserved <;> rfl

theorem State.touch_freeReserved (i : SlotNo) (r r' : Record) (bs : List BufNo) (x : Exchange) :
    (s.touch i r r' bs).freeReserved x = s.touch i r r' (bs ++ x.reserved.toList) := by
  rw [State.freeReserved]
  cases x.reserved with
  | none => simp
  | some b => exact State.touch_freeBuffer ..

/-- What the hold value of a reply does (R117, R118). -/
theorem State.applyHold_eq_touch (h : s.record i = some r) (hs : r.state ≠ .retired) (x : Exchange) (v : Reply)
    {n : Nat} (hv : v.kind = .hold n) : s.applyHold i n = s.touch i r (r.applied x v) [] := by
  rw [State.applyHold, h, Record.applied, hv]
  dsimp only
  by_cases h0 : n = 0
  · rw [if_pos h0, if_pos h0]
    by_cases hh : r.hold.isSome
    · rw [if_pos hh, if_pos hh]
      refine State.setRecord_post i ?_ ?_ ?_ .holdEnded
      exacts [rfl, rfl, hs]
    · rw [if_neg hh, if_neg hh, State.touch_self h, State.freeAll_nil]
  · rw [if_neg h0, if_neg h0]
    by_cases hh : r.hold.isSome
    · rw [if_pos hh, if_pos hh]
      exact State.setRecord_eq_touch i rfl
    · rw [if_neg hh, if_neg hh]
      refine State.setRecord_post i ?_ ?_ ?_ .held
      exacts [rfl, rfl, hs]

end Sys2Proof.Machine
end

section
/-! What an outcome of POLL or DATA leaves of the target's record: it keeps its owner, its reasons and its identity, and
which buffers its message gives back (R91 to R99). -/

namespace Sys2Proof.Machine

variable {s : State} {i : SlotNo} {r : Record}

/-! ### What the steps keep of the record -/

theorem Record.follows_recovers (r : Record) (slowDivisor : Nat) : r.Follows (r.recovers slowDivisor) := by
  unfold Record.recovers
  split
  · exact ⟨rfl, fun h => absurd h (Reason.recovered.bit_or_ne_zero _)⟩
  · exact .refl r

@[simp] theorem Record.recovers_outq (r : Record) (slowDivisor : Nat) : (r.recovers slowDivisor).outq = r.outq := by
  unfold Record.recovers; split <;> rfl

@[simp] theorem Record.recovers_recvSeq (r : Record) (slowDivisor : Nat) :
    (r.recovers slowDivisor).recvSeq = r.recvSeq := by
  unfold Record.recovers; split <;> rfl

@[simp] theorem Record.recovers_address (r : Record) (slowDivisor : Nat) :
    (r.recovers slowDivisor).address = r.address := by
  unfold Record.recovers; split <;> rfl

theorem Record.recovers_isMember (slowDivisor : Nat) (h : r.state.isMember = true) :
    (r.recovers slowDivisor).state.isMember = true := by
  unfold Record.recovers; split
  · rfl
  · exact h

theorem Record.follows_unacknowledged (r : Record) (retryLimit : Nat) (b : BufNo) :
    r.Follows (r.unacknowledged retryLimit b) := by
  unfold Record.unacknowledged
  dsimp only
  split
  · exact ⟨rfl, fun h => absurd h (Reason.undelivered.bit_or_ne_zero _)⟩
  · exact ⟨rfl, id⟩

@[simp] theorem Record.unacknowledged_state (r : Record) (retryLimit : Nat) (b : BufNo) :
    (r.unacknowledged retryLimit b).state = r.state := by
  unfold Record.unacknowledged; dsimp only; split <;> rfl

@[simp] theorem Record.unacknowledged_recvSeq (r : Record) (retryLimit : Nat) (b : BufNo) :
    (r.unacknowledged retryLimit b).recvSeq = r.recvSeq := by
  unfold Record.unacknowledged; dsimp only; split <;> rfl

@[simp] theorem Record.unacknowledged_address (r : Record) (retryLimit : Nat) (b : BufNo) :
    (r.unacknowledged retryLimit b).address = r.address := by
  unfold Record.unacknowledged; dsimp only; split <;> rfl

theorem Record.unacknowledged_outq (r : Record) (retryLimit : Nat) (b : BufNo) :
    (r.unacknowledged retryLimit b).outq =
      if retryLimit ≤ r.headAttempts.getD 0 + 1 then r.outq.erase b else r.outq := by
  unfold Record.unacknowledged; dsimp only; split <;> rfl

/-- A reply judged for acknowledgement leaves the record, acknowledges its message, or counts an attempt (R91 to R93). -/
theorem Record.judged_cases (r : Record) (retryLimit : Nat) (x : Exchange) (v : Reply) :
    r.judged retryLimit x v = r
      ∨ (∃ b, x.outbound = some b ∧ r.judged retryLimit x v = r.acknowledged b)
      ∨ ∃ b, x.outbound = some b ∧ r.judged retryLimit x v = r.unacknowledged retryLimit b := by
  obtain ⟨kind, target, ns, ob, rs⟩ := x
  unfold Record.judged
  split
  · next b ns hk hb hn =>
    dsimp only at hb
    subst hb
    split
    · exact .inr (.inl ⟨b, rfl, rfl⟩)
    · split
      · exact .inl rfl
      all_goals exact .inr (.inr ⟨b, rfl, rfl⟩)
  · exact .inl rfl

theorem Record.follows_acknowledged (r : Record) (b : BufNo) : r.Follows (r.acknowledged b) :=
  ⟨rfl, fun h => absurd h (Reason.delivered.bit_or_ne_zero _)⟩

theorem Record.follows_judged (r : Record) (retryLimit : Nat) (x : Exchange) (v : Reply) :
    r.Follows (r.judged retryLimit x v) := by
  rcases r.judged_cases retryLimit x v with e | ⟨b, -, e⟩ | ⟨b, -, e⟩ <;> rw [e]
  · exact .refl r
  · exact r.follows_acknowledged b
  · exact r.follows_unacknowledged retryLimit b

@[simp] theorem Record.judged_state (r : Record) (retryLimit : Nat) (x : Exchange) (v : Reply) :
    (r.judged retryLimit x v).state = r.state := by
  rcases r.judged_cases retryLimit x v with e | ⟨b, -, e⟩ | ⟨b, -, e⟩ <;> rw [e]
  · rfl
  · exact r.unacknowledged_state retryLimit b

@[simp] theorem Record.judged_recvSeq (r : Record) (retryLimit : Nat) (x : Exchange) (v : Reply) :
    (r.judged retryLimit x v).recvSeq = r.recvSeq := by
  rcases r.judged_cases retryLimit x v with e | ⟨b, -, e⟩ | ⟨b, -, e⟩ <;> rw [e]
  · rfl
  · exact r.unacknowledged_recvSeq retryLimit b

@[simp] theorem Record.judged_address (r : Record) (retryLimit : Nat) (x : Exchange) (v : Reply) :
    (r.judged retryLimit x v).address = r.address := by
  rcases r.judged_cases retryLimit x v with e | ⟨b, -, e⟩ | ⟨b, -, e⟩ <;> rw [e]
  · rfl
  · exact r.unacknowledged_address retryLimit b

theorem Record.follows_counted (r : Record) (threshold : Nat) : r.Follows (r.counted threshold) := by
  unfold Record.counted
  dsimp only
  split
  · split
    · exact ⟨rfl, fun h => absurd h (Reason.silent.bit_or_ne_zero _)⟩
    · exact ⟨rfl, id⟩
  all_goals exact ⟨rfl, id⟩

@[simp] theorem Record.counted_outq (r : Record) (threshold : Nat) : (r.counted threshold).outq = r.outq := by
  unfold Record.counted
  dsimp only
  split
  · split <;> rfl
  all_goals rfl

/-! ### The buffer a message gives back -/

/-- A message whose buffer stays in the outbound queue gives none back. -/
theorem finishedBuffer_of_mem {x : Exchange} {after : Record} (h : ∀ b, x.outbound = some b → b ∈ after.outq) :
    finishedBuffer x after = [] := by
  unfold finishedBuffer
  cases hb : x.outbound with
  | none => rfl
  | some b => exact if_pos (h b hb)

theorem finishedBuffer_of_erase {x : Exchange} {after : Record} {b : BufNo} {queue : List BufNo}
    (hb : x.outbound = some b) (hq : queue.Nodup) (ha : after.outq = queue.erase b) : finishedBuffer x after = [b] := by
  unfold finishedBuffer
  rw [hb]
  exact if_neg (ha ▸ hq.not_mem_erase)

/-- An unsuccessful attempt gives back what it abandons. -/
theorem finishedBuffer_unacknowledged {x : Exchange} {b : BufNo} (retryLimit : Nat) (hb : x.outbound = some b)
    (hq : r.outq.Nodup) (hm : b ∈ r.outq) :
    finishedBuffer x (r.unacknowledged retryLimit b) = r.abandons retryLimit b := by
  have hout := r.unacknowledged_outq retryLimit b
  unfold Record.abandons
  by_cases hl : retryLimit ≤ r.headAttempts.getD 0 + 1
  · rw [if_pos hl] at hout ⊢
    exact finishedBuffer_of_erase hb hq hout
  · rw [if_neg hl] at hout ⊢
    refine finishedBuffer_of_mem fun c hc => ?_
    rw [hout]
    rw [hb, Option.some.injEq] at hc
    exact hc ▸ hm

/-- A valid reply's acknowledgement as a touch of the record (R91 to R93). -/
theorem State.judgeAck_eq_touch {x : Exchange} (v : Reply) (h : s.record i = some r) (hs : r.state ≠ .retired)
    (hb : ∀ b, x.outbound = some b → b ∈ r.outq) (hq : r.outq.Nodup) :
    s.judgeAck i x v = s.touch i r (r.judged s.trunk.health.retryLimit x v)
      (finishedBuffer x (r.judged s.trunk.health.retryLimit x v)) := by
  have unchanged : s = s.touch i r r (finishedBuffer x r) := by
    rw [finishedBuffer_of_mem hb, State.touch_self h, State.freeAll_nil]
  have attempt : ∀ b, x.outbound = some b → s.countAttempt i b =
      s.touch i r (r.unacknowledged s.trunk.health.retryLimit b)
        (finishedBuffer x (r.unacknowledged s.trunk.health.retryLimit b)) := fun b ho => by
    rw [finishedBuffer_unacknowledged _ ho hq (hb b ho), State.countAttempt_eq_touch h hs (hb b ho)]
  unfold State.judgeAck Record.judged
  cases x.kind
  case data =>
    cases ho : x.outbound with
    | none => exact unchanged
    | some b =>
      cases x.sentNS with
      | none => exact unchanged
      | some ns =>
        dsimp only
        by_cases hack : v.nr = ns + 1
        · rw [if_pos hack, if_pos hack, finishedBuffer_of_erase ho hq rfl]
          exact State.finishMessage_eq_touch h hs (hb b ho) .delivered
        · rw [if_neg hack, if_neg hack]
          cases v.kind
          case hold => exact unchanged
          all_goals exact attempt b ho
  all_goals exact unchanged

end Sys2Proof.Machine
end

section
/-! A valid reply to POLL or DATA from a member (R89, R91 to R95, R100). -/

namespace Sys2Proof.Machine

variable {s : State} {i : SlotNo} {r : Record}

/-! ### States that agree but for the line, the lengths and the contents of the buffers -/

/-- Two states agree on the registry, the Ring, the Admission Unit, the channels and the free buffer list. -/
structure State.SameRecords (s w : State) : Prop where
  registry : w.registry = s.registry
  poll : w.poll = s.poll
  adm : w.adm = s.adm
  free : w.pool.free = s.pool.free
  floor : w.pool.reserveFloor = s.pool.reserveFloor
  ports : w.port0 = s.port0 ∧ w.port1 = s.port1
  rest : s.SameOuter w

theorem State.SameRecords.refl (s : State) : s.SameRecords s := ⟨rfl, rfl, rfl, rfl, rfl, ⟨rfl, rfl⟩, .refl s⟩

theorem State.SameRecords.trans {s t u : State} (h : s.SameRecords t) (k : t.SameRecords u) : s.SameRecords u :=
  ⟨k.registry.trans h.registry, k.poll.trans h.poll, k.adm.trans h.adm, k.free.trans h.free, k.floor.trans h.floor,
    ⟨k.ports.1.trans h.ports.1, k.ports.2.trans h.ports.2⟩, h.rest.trans k.rest⟩

theorem State.SameRecords.port {s w : State} (h : s.SameRecords w) (ch : Channel) : w.port ch = s.port ch := by
  cases ch
  · exact h.ports.1
  · exact h.ports.2

theorem State.SameRecords.slot {s w : State} (h : s.SameRecords w) (i : SlotNo) : w.slot i = s.slot i := by
  rw [State.slot, h.registry]
  rfl

theorem State.SameRecords.record {s w : State} (h : s.SameRecords w) (i : SlotNo) : w.record i = s.record i := by
  rw [State.record, h.slot]
  rfl

theorem State.SameRecords.handle {s w : State} (h : s.SameRecords w) (i : SlotNo) : w.handle i = s.handle i := by
  rw [State.handle, h.slot]
  rfl

theorem State.sameRecords_updTrunk (s : State) (f : Trunk → Trunk) : s.SameRecords (s.updTrunk f) :=
  ⟨rfl, rfl, rfl, rfl, rfl, ⟨rfl, rfl⟩, ⟨rfl, rfl, rfl, rfl⟩⟩

theorem State.sameRecords_setBuffer (s : State) (b : BufNo) (x : Buffer) : s.SameRecords (s.setBuffer b x) :=
  ⟨rfl, rfl, rfl, rfl, rfl, ⟨rfl, rfl⟩, ⟨rfl, rfl, rfl, rfl⟩⟩

theorem State.sameRecords_writeBuffer (s : State) (b : BufNo) (bytes : List Byte) :
    s.SameRecords (s.writeBuffer b bytes) :=
  ⟨rfl, rfl, rfl, rfl, rfl, ⟨rfl, rfl⟩, ⟨rfl, rfl, rfl, rfl⟩⟩

theorem State.sameRecords_takePayload (s : State) (payload : List Byte) : s.SameRecords (s.takePayload payload) := by
  unfold State.takePayload
  split
  · exact State.sameRecords_writeBuffer ..
  · exact .refl s

theorem State.sameRecords_takeLength (s : State) (v : Reply) : s.SameRecords (s.takeLength v) := by
  rcases s.takeLength_eq v with e | ⟨x, b, n, -, -, -, e⟩ <;> rw [e]
  · exact .refl s
  · exact State.sameRecords_setBuffer ..

theorem State.sameRecords_returnLength (s before : State) (v : Reply) : s.SameRecords (s.returnLength before v) := by
  rcases s.returnLength_eq before v with e | ⟨x, b, -, -, -, e⟩ <;> rw [e]
  · exact .refl s
  · exact State.sameRecords_setBuffer ..

/-- A touch of a state that agrees with another is what an outcome leaves of the other (R157, R177). -/
theorem State.SameRecords.outcomeFrame_touch {s w : State} (h : s.SameRecords w) (i : SlotNo) (r r' : Record)
    (freed : List BufNo) : OutcomeFrame s (w.touch i r r' freed) i r r' freed where
  registry := by
    rw [State.touch_registry, State.setRecord, State.setSlot, h.slot, h.registry]
    rfl
  poll := (State.touch_poll ..).trans h.poll
  adm := (State.touch_adm ..).trans h.adm
  free := by rw [State.touch_pool, State.freeAll_free, h.free]
  floor := by rw [State.touch_pool, State.freeAll_floor, h.floor]
  owner := by rw [State.port_touch_same, h.port]
  other := by rw [State.port_touch_other, h.port]
  rest := by
    obtain ⟨h1, h2, h3, h4⟩ := h.rest
    exact ⟨(State.touch_pending ..).trans h1, (State.touch_resetIn ..).trans h2, (State.touch_lineCause ..).trans h3,
      (State.touch_servedLast ..).trans h4⟩

theorem OutcomeFrame.of_sameRecords {s u u' : State} {r' : Record} {freed : List BufNo}
    (h : OutcomeFrame s u i r r' freed) (k : u.SameRecords u') : OutcomeFrame s u' i r r' freed where
  registry := k.registry.trans h.registry
  poll := k.poll.trans h.poll
  adm := k.adm.trans h.adm
  free := k.free.trans h.free
  floor := k.floor.trans h.floor
  owner := by rw [k.port]; exact h.owner
  other := by rw [k.port]; exact h.other
  rest := State.SameOuter.trans h.rest k.rest

/-! ### The end of an exchange with a target -/

/-- The outcome of an exchange with a target: the fault run, the target by the exchange's kind, and the guard (R81,
R100). -/
theorem State.outcome_eq {x : Exchange} {h : Handle} (hx : s.trunk.current = some x) (ht : x.target = some h)
    (reply : Option Reply) : s.outcome reply =
      (match x.kind with
        | .poll | .data => (if reply.isSome then s.faultClear else s.faultMiss).pollDataOutcome h.slot x reply
        | .admitExchange => (if reply.isSome then s.faultClear else s.faultMiss).admitOutcome h.slot reply
        | .invite | .dismiss => if reply.isSome then s.faultClear else s.faultMiss).toGuard := by
  obtain ⟨kind, target, ns, ob, rs⟩ := x
  dsimp only at ht
  subst ht
  rw [State.outcome, hx] <;> cases kind <;> rfl

theorem State.returnLength_of_not_data (s before : State) {v : Reply} (h : ∀ n, v.kind ≠ .data n) :
    s.returnLength before v = s := by
  rcases s.returnLength_eq before v with e | e
  · exact e
  · unfold State.returnLength
    split
    · next n _ hk => exact absurd hk (h n)
    · rfl

/-- The reserved buffer's length of before returns whether or not the guard runs. -/
theorem State.returnLength_toGuard (s before : State) (v : Reply) :
    s.toGuard.returnLength before v = (s.returnLength before v).toGuard := by
  unfold State.returnLength
  split
  · next b n _ _ =>
    rw [show s.toGuard.buffer b = s.buffer b from rfl]
    cases (s.buffer b).place <;> rfl
  · rfl

end Sys2Proof.Machine
end

section
/-! A valid reply to POLL or DATA from a member: the steps of R89 together, and what they leave (R89, R91 to R95). -/

namespace Sys2Proof.Machine

variable {s : State} {i : SlotNo} {r : Record}

/-! ### The reply's kind -/

theorem Record.follows_applied (r : Record) (x : Exchange) (v : Reply) : r.Follows (r.applied x v) := by
  unfold Record.applied
  split
  · split <;> exact ⟨rfl, id⟩
  · split
    · split
      · exact ⟨rfl, fun h => absurd h (Reason.holdEnded.bit_or_ne_zero _)⟩
      · exact .refl r
    · split
      · exact ⟨rfl, id⟩
      · exact ⟨rfl, fun h => absurd h (Reason.held.bit_or_ne_zero _)⟩
  all_goals exact .refl r

theorem Record.applied_state (r : Record) (x : Exchange) (v : Reply) : (r.applied x v).state = r.state := by
  unfold Record.applied
  split
  · split <;> rfl
  · split
    · split <;> rfl
    · split <;> rfl
  all_goals rfl

theorem Record.applied_outq (r : Record) (x : Exchange) (v : Reply) : (r.applied x v).outq = r.outq := by
  unfold Record.applied
  split
  · split <;> rfl
  · split
    · split <;> rfl
    · split <;> rfl
  all_goals rfl

theorem State.touch_updCounters (f : Counters → Counters) (i : SlotNo) (r r' : Record) (bs : List BufNo) :
    (s.touch i r r' bs).updCounters f = (s.updCounters f).touch i r r' bs := by
  have hpool := State.freeAll_pool_congr bs (show (s.updCounters f).pool = s.pool from rfl)
  rw [State.touch, State.touch, hpool]
  cases r.owner <;> rfl

/-- The state with an inbound DATA out of sequence counted UNEXPECTED (R74, R94). -/
def State.countSequence (s : State) (r : Record) (v : Reply) : State :=
  if r.outOfSequence (some v) then s.updCounters fun c => { c with unexpected := countUp c.unexpected } else s

theorem Record.outOfSequence_data {r : Record} {v : Reply} {n : Nat} (hv : v.kind = .data n) :
    r.outOfSequence (some v) = decide (v.ns ≠ r.recvSeq ∧ v.ns ≠ r.recvSeq - 1) := by
  obtain ⟨kind, ns, nr⟩ := v
  dsimp only at hv
  subst hv
  rfl

theorem Record.outOfSequence_of_not_data {r : Record} {v : Reply} (hv : ∀ n, v.kind ≠ .data n) :
    r.outOfSequence (some v) = false := by
  obtain ⟨kind, ns, nr⟩ := v
  cases kind
  case data n => exact absurd rfl (hv n)
  all_goals rfl

/-- A reply whose message is not delivered: its kind is applied, and the reserved buffer goes back (R94, R95). -/
theorem State.applyKind_of_not_takes {x : Exchange} {v : Reply} (h : s.record i = some r) (hs : r.state ≠ .retired)
    (ht : r.takes x v = false) : s.applyKind i x v =
      (s.countSequence r v).touch i r (r.applied x v) x.reserved.toList := by
  have same : (s.countSequence r v).record i = some r := by
    rw [State.countSequence]
    split <;> exact h
  have kept : ∀ t : State, t.record i = some r → t.freeReserved x = t.touch i r r x.reserved.toList := fun t hr => by
    rw [State.freeReserved_eq, State.touch_self hr]
  rw [State.applyKind]
  cases hv : v.kind
  case data n =>
    have happ : r.applied x v = r := by rw [Record.applied, hv]; exact if_neg (ne_true_of_eq_false ht)
    have htakes : (decide (v.ns = r.recvSeq) && x.reserved.isSome) = false := by rw [Record.takes, hv] at ht; exact ht
    rw [happ, State.countSequence, Record.outOfSequence_data hv] at *
    dsimp only
    rw [State.judgeInbound, h]
    dsimp only
    by_cases h1 : v.ns = r.recvSeq
    · rw [if_pos h1]
      have hres : x.reserved = none := by simpa [h1] using htakes
      rw [hres, if_neg (by simp [h1]), Option.toList_none, State.touch_self h]
      rfl
    · rw [if_neg h1]
      by_cases h2 : v.ns = r.recvSeq - 1
      · rw [if_pos h2, if_neg (by simp [h2])]
        exact kept s h
      · rw [if_neg h2, if_pos (decide_eq_true ⟨h1, h2⟩)]
        exact kept _ h
  case hold n =>
    have hcs : s.countSequence r v = s := by
      rw [State.countSequence, Record.outOfSequence_of_not_data fun m => by rw [hv]; simp]; rfl
    dsimp only
    rw [hcs, State.applyHold_eq_touch h hs x v hv, State.touch_freeReserved, List.nil_append]
  all_goals
    have hcs : s.countSequence r v = s := by
      rw [State.countSequence, Record.outOfSequence_of_not_data fun m => by rw [hv]; simp]; rfl
    have happ : r.applied x v = r := by rw [Record.applied, hv]
    rw [hcs, happ]
    exact kept s h

/-- A reply whose message is delivered (R94). -/
theorem State.applyKind_of_takes {x : Exchange} {v : Reply} (h : s.record i = some r) (ht : r.takes x v = true) :
    ∃ b n, x.reserved = some b ∧ v.kind = .data n ∧ v.ns = r.recvSeq ∧ s.applyKind i x v = s.deliver i r b n := by
  rw [Record.takes] at ht
  cases hv : v.kind
  case data n =>
    rw [hv] at ht
    obtain ⟨hns, hres⟩ := Bool.and_eq_true_iff.1 ht
    obtain ⟨b, hb⟩ := Option.isSome_iff_exists.1 hres
    refine ⟨b, n, hb, rfl, of_decide_eq_true hns, ?_⟩
    rw [State.applyKind, hv]
    dsimp only
    rw [State.judgeInbound, h]
    dsimp only
    rw [if_pos (of_decide_eq_true hns), hb]
  all_goals
    rw [hv] at ht
    exact absurd ht Bool.false_ne_true

/-- A delivery after a touch of the record: the buffer, and the owner's delivery queue (R94). -/
theorem State.touch_deliver {q : Record} (k : r.Follows q) (bs : List BufNo) (b : BufNo) (n : Nat) :
    (s.touch i r q bs).deliver i q b n =
      let t := (s.touch i r { q with recvSeq := q.recvSeq + 1 } bs).setBuffer b
        { length := n, place := .delivered (s.handle i) q.address }
      t.setPort r.owner { t.port r.owner with deliveryQueue := (t.port r.owner).deliveryQueue ++ [b] } := by
  have hset : ((s.touch i r q bs).setBuffer b
      { length := n, place := .delivered ((s.touch i r q bs).handle i) q.address }).setRecord i
        (some { q with recvSeq := q.recvSeq + 1 }) =
      (s.touch i r { q with recvSeq := q.recvSeq + 1 } bs).setBuffer b
        { length := n, place := .delivered (s.handle i) q.address } := by
    rw [State.touch_handle, ← State.touch_setRecord (r'' := { q with recvSeq := q.recvSeq + 1 }) i bs k rfl rfl]
    rfl
  rw [State.deliver]
  dsimp only
  rw [hset, k.owner]

/-! ### The steps of R89 together -/

/-- The record once its reply is acknowledged, before the reply's kind is applied. -/
def Record.answered (r : Record) (slowDivisor retryLimit : Nat) (x : Exchange) (v : Reply) : Record :=
  Record.judged { r.recovers slowDivisor with
    missCount := some 0, replies := min 65535 ((r.recovers slowDivisor).replies + 1) } retryLimit x v

theorem Record.replied_eq (r : Record) (slowDivisor retryLimit : Nat) (x : Exchange) (v : Reply) :
    r.replied slowDivisor retryLimit x v = (r.answered slowDivisor retryLimit x v).applied x v := rfl

theorem Record.follows_answered (r : Record) (slowDivisor retryLimit : Nat) (x : Exchange) (v : Reply) :
    r.Follows (r.answered slowDivisor retryLimit x v) := by
  have counts : (r.recovers slowDivisor).Follows { r.recovers slowDivisor with
    missCount := some 0, replies := min 65535 ((r.recovers slowDivisor).replies + 1) } := ⟨rfl, id⟩
  exact (r.follows_recovers slowDivisor).trans (counts.trans (Record.follows_judged _ retryLimit x v))

theorem Record.answered_recvSeq (r : Record) (slowDivisor retryLimit : Nat) (x : Exchange) (v : Reply) :
    (r.answered slowDivisor retryLimit x v).recvSeq = r.recvSeq := by
  simp [Record.answered]

theorem Record.answered_address (r : Record) (slowDivisor retryLimit : Nat) (x : Exchange) (v : Reply) :
    (r.answered slowDivisor retryLimit x v).address = r.address := by
  simp [Record.answered]

theorem RecState.isMember_ne_retired {x : RecState} (h : x.isMember = true) : x ≠ .retired := by
  rintro rfl
  cases h

theorem Record.answered_isMember (slowDivisor retryLimit : Nat) (x : Exchange) (v : Reply)
    (h : r.state.isMember = true) : (r.answered slowDivisor retryLimit x v).state.isMember = true := by
  rw [Record.answered, Record.judged_state]
  exact Record.recovers_isMember slowDivisor h

theorem Record.takes_congr {r q : Record} (h : q.recvSeq = r.recvSeq) (x : Exchange) (v : Reply) :
    q.takes x v = r.takes x v := by
  rw [Record.takes, h]
  rfl

theorem Record.outOfSequence_congr {r q : Record} (h : q.recvSeq = r.recvSeq) (v : Option Reply) :
    q.outOfSequence v = r.outOfSequence v := by
  unfold Record.outOfSequence
  rw [h]

theorem finishedBuffer_congr {x : Exchange} {a b : Record} (h : a.outq = b.outq) :
    finishedBuffer x a = finishedBuffer x b := by
  rw [finishedBuffer, h]
  rfl

/-- Recovery, the counts and the acknowledgement, as one touch of the record (R89). -/
theorem State.answered_eq_touch {x : Exchange} (v : Reply) (h : s.record i = some r) (hm : r.state.isMember = true)
    (hb : ∀ b, x.outbound = some b → b ∈ r.outq) (hq : r.outq.Nodup) :
    let q := r.answered s.poll.slowDivisor s.trunk.health.retryLimit x v
    ((if r.state = .silent then s.recover i else s).updRecord i fun r =>
        { r with missCount := some 0, replies := satInc 65535 r.replies }).judgeAck i x v =
      s.touch i r q (finishedBuffer x q) := by
  have f1 := r.follows_recovers s.poll.slowDivisor
  rw [State.recovers_eq_touch h, State.touch_updRecord i [] _ f1 rfl rfl]
  refine State.touch_then (f := fun t => t.judgeAck i x v) (fun t ht hk hp => ?_) (f1.trans ⟨rfl, id⟩)
    (Record.follows_judged _ _ x v)
  rw [← hk]
  exact State.judgeAck_eq_touch v ht (RecState.isMember_ne_retired (Record.recovers_isMember _ hm))
    (fun b ho => by simpa using hb b ho) (by simpa using hq)

theorem State.countSequence_touch {q q' : Record} (bs : List BufNo) (v : Reply) (h : q.recvSeq = r.recvSeq) :
    (s.touch i r q' bs).countSequence q v = (s.countSequence r v).touch i r q' bs := by
  rw [State.countSequence, State.countSequence, Record.outOfSequence_congr h]
  split
  · exact State.touch_updCounters ..
  · rfl

/-- A reply that delivers nothing, up to the release of the target: one touch of the record (R89, R95). -/
theorem State.replied_of_not_takes {x : Exchange} {v : Reply} (hm : r.state.isMember = true)
    (ht : r.takes x v = false) :
    let q := r.answered s.poll.slowDivisor s.trunk.health.retryLimit x v
    let r' := r.replied s.poll.slowDivisor s.trunk.health.retryLimit x v
    (s.touch i r q (finishedBuffer x q)).applyKind i x v =
      (s.countSequence r v).touch i r r' (finishedBuffer x r' ++ x.reserved.toList) := by
  intro q r'
  have hseq : q.recvSeq = r.recvSeq := r.answered_recvSeq ..
  have hstate := RecState.isMember_ne_retired (r.answered_isMember s.poll.slowDivisor s.trunk.health.retryLimit x v hm)
  rw [State.applyKind_of_not_takes (State.record_touch_same ..) hstate ((Record.takes_congr hseq x v).trans ht),
    State.countSequence_touch _ v hseq, State.touch_touch i (r.follows_answered ..) (q.follows_applied x v),
    finishedBuffer_congr (q.applied_outq x v).symm]
  rfl

/-- A reply that delivers its message, up to the release of the target (R89, R94). -/
theorem State.replied_of_takes {x : Exchange} {v : Reply} (ht : r.takes x v = true) :
    let q := r.answered s.poll.slowDivisor s.trunk.health.retryLimit x v
    let r' := r.replied s.poll.slowDivisor s.trunk.health.retryLimit x v
    ∃ b n, x.reserved = some b ∧ v.kind = .data n ∧ v.ns = r.recvSeq ∧
      (s.touch i r q (finishedBuffer x q)).applyKind i x v =
        let t := (s.touch i r r' (finishedBuffer x r')).setBuffer b
          { length := n, place := .delivered (s.handle i) r.address }
        t.setPort r.owner { t.port r.owner with deliveryQueue := (t.port r.owner).deliveryQueue ++ [b] } := by
  intro q r'
  have hseq : q.recvSeq = r.recvSeq := r.answered_recvSeq ..
  obtain ⟨b, n, hb, hv, hns, e⟩ := State.applyKind_of_takes (s := s.touch i r q (finishedBuffer x q))
    (State.record_touch_same ..) ((Record.takes_congr hseq x v).trans ht)
  have hr' : r' = { q with recvSeq := q.recvSeq + 1 } := by
    have : q.applied x v = { q with recvSeq := q.recvSeq + 1 } := by
      rw [Record.applied, hv]
      exact if_pos ((Record.takes_congr hseq x v).trans ht)
    exact this
  refine ⟨b, n, hb, hv, hns.trans hseq, ?_⟩
  rw [e, State.touch_deliver (r.follows_answered ..), ← hr', r.answered_address, finishedBuffer_congr (a := q) (b := r')
    (by rw [hr'])]

end Sys2Proof.Machine
end

section
/-! A valid reply to POLL or DATA from a member, from the bytes received to the guard (R64, R69, R70, R89). -/

namespace Sys2Proof.Machine

variable {s : State} {i : SlotNo} {r : Record} {x : Exchange}

/-! ### The outcome for a member -/

theorem State.outcome_pollData {h : Handle} (hx : s.trunk.current = some x) (hk : x.kind = .poll ∨ x.kind = .data)
    (ht : x.target = some h) (reply : Option Reply) : s.outcome reply =
      ((if reply.isSome then s.faultClear else s.faultMiss).pollDataOutcome h.slot x reply).toGuard := by
  rw [State.outcome_eq hx ht]
  rcases hk with hk | hk <;> rw [hk]

theorem State.pollDataOutcome_member (hr : s.record i = some r) (hm : r.state.isMember = true) (x : Exchange)
    (reply : Option Reply) : s.pollDataOutcome i x reply =
      match reply with
      | some v => s.validReply i r x v
      | none => s.missed i r x := by
  rw [State.pollDataOutcome, hr]
  dsimp only
  cases hs : r.state
  case active | silent | suspended => cases reply <;> rfl
  all_goals
    rw [hs] at hm
    exact absurd hm (by decide)

/-! ### The reserved buffer of the exchange -/

/-- The payload goes into the reserved buffer, if there is one (R70). -/
theorem State.takePayload_eq (hx : s.trunk.current = some x) (payload : List Byte) : s.takePayload payload =
    match x.reserved with
    | some b => s.writeBuffer b payload
    | none => s := by
  obtain ⟨kind, target, ns, ob, rs⟩ := x
  rw [State.takePayload, hx]
  cases rs <;> rfl

/-- The payload of a reply in the memory of the buffers: in the reserved buffer alone. -/
theorem State.wrote_takePayload (hx : s.trunk.current = some x) (hwf : Memory.wf s.pool.mem = true) (bytes : List Byte)
    (lost : Bool) : match x.reserved with
      | some b => Wrote s.pool.mem (s.takePayload (dataPayloadTaken bytes lost)).pool.mem (bufferBase b)
          (dataPayloadTaken bytes lost)
      | none => (s.takePayload (dataPayloadTaken bytes lost)).pool.mem = s.pool.mem := by
  rw [State.takePayload_eq hx]
  cases x.reserved with
  | none => rfl
  | some b => exact State.wrote_writeBuffer hwf b ((dataPayloadTaken_length bytes lost).trans (by decide))

/-- Taking the payload changes the memory alone. -/
theorem State.takePayload_frame (s : State) (payload : List Byte) : s.takePayload payload =
    { s with pool := { s.pool with mem := (s.takePayload payload).pool.mem } } := by
  unfold State.takePayload
  split <;> rfl

theorem State.takeLength_data {b : BufNo} {v : Reply} {n : Nat} (hx : s.trunk.current = some x)
    (hb : x.reserved = some b) (hv : v.kind = .data n) :
    s.takeLength v = s.setBuffer b { s.buffer b with length := n } := by
  obtain ⟨kind, target, ns, ob, rs⟩ := x
  dsimp only at hb
  subst hb
  rw [State.takeLength, hx, hv]

theorem State.takeLength_none {v : Reply} (hx : s.trunk.current = some x)
    (h : x.reserved = none ∨ ∀ n, v.kind ≠ .data n) : s.takeLength v = s := by
  rcases s.takeLength_eq v with e | ⟨y, b, n, hy, hb, hv, -⟩
  · exact e
  · rw [hx, Option.some.injEq] at hy
    subst hy
    rcases h with h | h
    · rw [h] at hb
      cases hb
    · exact absurd hv (h n)

theorem State.returnLength_none {before : State} {v : Reply} (hx : before.trunk.current = some x)
    (h : x.reserved = none ∨ ∀ n, v.kind ≠ .data n) : s.returnLength before v = s := by
  rcases s.returnLength_eq before v with e | ⟨y, b, hy, hb, -, e⟩
  · exact e
  · rw [hx, Option.some.injEq] at hy
    subst hy
    rcases h with h | h
    · rw [h] at hb
      cases hb
    · exact State.returnLength_of_not_data s before h

theorem State.returnLength_data {before : State} {b : BufNo} {v : Reply} {n : Nat}
    (hx : before.trunk.current = some x) (hb : x.reserved = some b) (hv : v.kind = .data n) :
    s.returnLength before v = if (s.buffer b).place = .free then
      s.setBuffer b { s.buffer b with length := (before.buffer b).length } else s := by
  obtain ⟨kind, target, ns, ob, rs⟩ := x
  dsimp only at hb
  subst hb
  rw [State.returnLength, hx, hv]
  dsimp only
  cases (s.buffer b).place <;> rfl

/-! ### The state in which the reply is applied -/

/-- The state in which a valid reply's outcome is applied: payload and length taken, and the fault run cleared (R70,
R100). -/
def State.heardReply (s : State) (payload : List Byte) (v : Reply) : State :=
  ((s.takePayload payload).takeLength v).faultClear

theorem State.sameRecords_heardReply (s : State) (payload : List Byte) (v : Reply) :
    s.SameRecords (s.heardReply payload v) :=
  (s.sameRecords_takePayload payload).trans
    ((State.sameRecords_takeLength _ v).trans (State.sameRecords_updTrunk _ fun t => { t with faultRun := 0 }))

theorem State.takeLength_frame (s : State) (v : Reply) : (s.takeLength v).trunk = s.trunk
    ∧ (s.takeLength v).pool.mem = s.pool.mem := by
  rcases s.takeLength_eq v with e | ⟨y, b, n, -, -, -, e⟩ <;> rw [e] <;> exact ⟨rfl, rfl⟩

theorem State.heardReply_trunk (s : State) (payload : List Byte) (v : Reply) :
    (s.heardReply payload v).trunk = { s.trunk with faultRun := 0 } := by
  have h : ((s.takePayload payload).takeLength v).trunk = s.trunk := by
    rw [(State.takeLength_frame _ v).1, State.takePayload_frame]
  exact congrArg (fun t : Trunk => { t with faultRun := 0 }) h

theorem State.heardReply_mem (s : State) (payload : List Byte) (v : Reply) :
    (s.heardReply payload v).pool.mem = (s.takePayload payload).pool.mem :=
  (State.takeLength_frame _ v).2

/-- A buffer in the state in which the reply is applied: the reserved one of a DATA has the payload's length. -/
theorem State.heardReply_buffer (hx : s.trunk.current = some x) (payload : List Byte) (v : Reply) (c : BufNo) :
    (s.heardReply payload v).buffer c =
      match v.kind with
      | .data n => if x.reserved = some c then { s.buffer c with length := n } else s.buffer c
      | .idle | .hold _ | .join _ | .leave => s.buffer c := by
  have base : ∀ c, (s.takePayload payload).buffer c = s.buffer c := fun c => by rw [State.takePayload_frame]; rfl
  have hx0 : (s.takePayload payload).trunk.current = some x := by rw [State.takePayload_frame]; exact hx
  rw [State.heardReply, show ∀ t : State, t.faultClear.buffer c = t.buffer c from fun _ => rfl]
  cases hv : v.kind
  case data n =>
    dsimp only
    cases hb : x.reserved with
    | none => rw [State.takeLength_none hx0 (.inl hb), base]; rfl
    | some b =>
      rw [State.takeLength_data hx0 hb hv, State.buffer_setBuffer, base]
      by_cases e : b = c
      · subst e; rw [if_pos rfl, if_pos rfl]
      · rw [if_neg e, if_neg (by simpa using e), base]
  all_goals rw [State.takeLength_none hx0 (.inr fun n => by rw [hv]; simp), base]

/-! ### What the reply leaves -/

/-- The state that a valid reply leaves, up to the release of the target and the reserved buffer's length of before
(R89, R161). -/
def State.repliedState (s : State) (i : SlotNo) (r : Record) (x : Exchange) (v : Reply) (payload : List Byte) : State :=
  let w := s.heardReply payload v
  ((((if r.state = .silent then w.recover i else w).updRecord i fun r =>
      { r with missCount := some 0, replies := satInc 65535 r.replies }).judgeAck i x v).applyKind i x
        v).releaseTarget.returnLength (s.takePayload payload) v

/-- The outcome of a valid reply from a member, and then the LEAVE (R89, R96). -/
theorem State.replyEnds_valid {bytes : List Byte} {lost : Bool} {h : Handle} {v : Reply} (hx : s.trunk.current = some x)
    (hk : x.kind = .poll ∨ x.kind = .data) (ht : x.target = some h) (hr : s.record h.slot = some r)
    (hm : r.state.isMember = true) (hv : judge x.kind s.expectedAddress (receive bytes lost) = .valid v) :
    s.replyEnds bytes lost =
      let u := s.repliedState h.slot r x v (dataPayloadTaken bytes lost)
      if v.kind = .leave then (u.enterRetirement h.slot .left false).toGuard else u.toGuard := by
  have hx0 : ((s.takePayload (dataPayloadTaken bytes lost)).takeLength v).trunk.current = some x := by
    rw [(State.takeLength_frame _ v).1, State.takePayload_frame]; exact hx
  have hrw := ((s.sameRecords_heardReply (dataPayloadTaken bytes lost) v).record h.slot).trans hr
  have hexp : (s.takePayload (dataPayloadTaken bytes lost)).expectedAddress = s.expectedAddress := by
    rw [State.takePayload_frame]; rfl
  have outcome : ((s.takePayload (dataPayloadTaken bytes lost)).takeLength v).outcome (some v) =
      ((s.heardReply (dataPayloadTaken bytes lost) v).validReply h.slot r x v).toGuard :=
    (State.outcome_pollData hx0 hk ht (some v)).trans
      (congrArg State.toGuard (State.pollDataOutcome_member hrw hm x (some v)))
  have ends : s.replyEnds bytes lost = ((((s.takePayload (dataPayloadTaken bytes lost)).takeLength v).outcome
      (some v)).returnLength (s.takePayload (dataPayloadTaken bytes lost)) v) := by
    rw [State.replyEnds, State.exchangeKind, hx, Option.map_some]
    dsimp only
    rw [hexp, hv]
  rw [ends, outcome, State.returnLength_toGuard, State.validReply]
  dsimp only
  by_cases hl : v.kind = .leave
  · have notData : ∀ n, v.kind ≠ .data n := fun n => by rw [hl]; simp
    rw [if_pos hl, if_pos hl, State.returnLength_of_not_data _ _ notData, State.repliedState,
      State.returnLength_of_not_data _ _ notData]
  · rw [if_neg hl, if_neg hl]
    rfl

end Sys2Proof.Machine
end

section
/-! What a valid reply to POLL or DATA leaves (R89), as the statement of O37 lists it. -/

namespace Sys2Proof.Machine

variable {s : State} {i : SlotNo} {r : Record} {x : Exchange}

/-- The steps of R89 for a reply that delivers nothing. -/
theorem State.repliedState_of_not_takes {v : Reply} (hr : s.record i = some r) (hm : r.state.isMember = true)
    (hb : ∀ b, x.outbound = some b → b ∈ r.outq) (hq : r.outq.Nodup) (ht : r.takes x v = false) (payload : List Byte) :
    let r' := r.replied s.poll.slowDivisor s.trunk.health.retryLimit x v
    s.repliedState i r x v payload =
      (((s.heardReply payload v).countSequence r v).touch i r r'
        (finishedBuffer x r' ++ x.reserved.toList)).releaseTarget.returnLength (s.takePayload payload) v := by
  have hrw := ((s.sameRecords_heardReply payload v).record i).trans hr
  have hp := (s.sameRecords_heardReply payload v).poll
  have hh : (s.heardReply payload v).trunk.health = s.trunk.health := by rw [State.heardReply_trunk]
  have step := State.replied_of_not_takes (s := s.heardReply payload v) (i := i) hm ht
  rw [hp, hh] at step
  rw [State.repliedState]
  dsimp only
  rw [State.answered_eq_touch v hrw hm hb hq, hp, hh, step]

/-- The steps of R89 for a reply that delivers its message. -/
theorem State.repliedState_of_takes {v : Reply} (hr : s.record i = some r) (hm : r.state.isMember = true)
    (hb : ∀ b, x.outbound = some b → b ∈ r.outq) (hq : r.outq.Nodup) (ht : r.takes x v = true) (payload : List Byte) :
    let r' := r.replied s.poll.slowDivisor s.trunk.health.retryLimit x v
    ∃ b n, x.reserved = some b ∧ v.kind = .data n ∧ v.ns = r.recvSeq ∧
      s.repliedState i r x v payload =
        let t := ((s.heardReply payload v).touch i r r' (finishedBuffer x r')).setBuffer b
          { length := n, place := .delivered (s.handle i) r.address }
        (t.setPort r.owner { t.port r.owner with
          deliveryQueue := (t.port r.owner).deliveryQueue ++ [b] }).releaseTarget.returnLength
            (s.takePayload payload) v := by
  have same := s.sameRecords_heardReply payload v
  have hh : (s.heardReply payload v).trunk.health = s.trunk.health := by rw [State.heardReply_trunk]
  obtain ⟨b, n, hres, hv, hns, step⟩ := State.replied_of_takes (s := s.heardReply payload v) (i := i) ht
  rw [same.poll, hh, same.handle] at step
  refine ⟨b, n, hres, hv, hns, ?_⟩
  rw [State.repliedState]
  dsimp only
  rw [State.answered_eq_touch v (same.record i |>.trans hr) hm hb hq, same.poll, hh, step]

theorem State.sameRecords_countSequence (s : State) (r : Record) (v : Reply) : s.SameRecords (s.countSequence r v) := by
  unfold State.countSequence
  split
  · exact State.sameRecords_updTrunk s fun t => { t with counters := { t.counters with
      unexpected := countUp t.counters.unexpected } }
  · exact .refl s

theorem State.sameRecords_releaseTarget (s : State) : s.SameRecords s.releaseTarget :=
  State.sameRecords_updTrunk s fun t => { t with
    current := t.current.map fun x => { x with target := none, sentNS := none, outbound := none, reserved := none } }

/-- An exchange with its target released (R81). -/
theorem State.releaseTarget_trunk (hx : s.trunk.current = some x) :
    s.releaseTarget.trunk = { s.trunk with current := some x.released } := by
  rw [State.releaseTarget, hx]
  rfl

theorem State.returnLength_frame (s before : State) (v : Reply) : (s.returnLength before v).trunk = s.trunk
    ∧ (s.returnLength before v).pool.mem = s.pool.mem := by
  rcases s.returnLength_eq before v with e | ⟨y, b, -, -, -, e⟩ <;> rw [e] <;> exact ⟨rfl, rfl⟩

/-- The counters of a reply, an inbound DATA out of sequence among them (R74, R94). -/
theorem State.countSequence_trunk (s : State) (r : Record) (v : Reply) : (s.countSequence r v).trunk =
    { s.trunk with counters :=
      match v.kind with
      | .data _ =>
        if v.ns = r.recvSeq ∨ v.ns = r.recvSeq - 1 then s.trunk.counters
        else { s.trunk.counters with unexpected := min 65535 (s.trunk.counters.unexpected + 1) }
      | .idle | .hold _ | .join _ | .leave => s.trunk.counters } := by
  rw [State.countSequence]
  cases hv : v.kind
  case data n =>
    rw [Record.outOfSequence_data hv]
    by_cases h : v.ns = r.recvSeq ∨ v.ns = r.recvSeq - 1
    · have : ¬ (v.ns ≠ r.recvSeq ∧ v.ns ≠ r.recvSeq - 1) := by tauto
      rw [if_neg (mt of_decide_eq_true this)]
      dsimp only
      rw [if_pos h]
    · have : v.ns ≠ r.recvSeq ∧ v.ns ≠ r.recvSeq - 1 := by tauto
      rw [if_pos (decide_eq_true this)]
      dsimp only
      rw [if_neg h]
      rfl
  all_goals
    rw [Record.outOfSequence_of_not_data fun m => by rw [hv]; simp]
    rfl

/-- Where a delivered reply's counters stand: they are those of before, since its N(S) is in sequence (R94). -/
theorem State.countSequence_of_takes {v : Reply} (ht : r.takes x v = true) : s.countSequence r v = s := by
  rw [Record.takes] at ht
  cases hv : v.kind <;> rw [hv] at ht
  case data n =>
    rw [State.countSequence, Record.outOfSequence_data hv]
    have := of_decide_eq_true (Bool.and_eq_true_iff.1 ht).1
    simp [this]
  all_goals exact absurd ht Bool.false_ne_true

/-- The parts of what a valid reply leaves that do not depend on a delivery. -/
theorem State.replied_trunk {v : Reply} {payload : List Byte} {u : State} (hx : s.trunk.current = some x)
    (hu : u.trunk = ((s.heardReply payload v).countSequence r v).releaseTarget.trunk) :
    u.trunk = { s.trunk with faultRun := 0, current := some x.released, counters := u.trunk.counters }
      ∧ u.trunk.counters = (match v.kind with
        | .data _ =>
          if v.ns = r.recvSeq ∨ v.ns = r.recvSeq - 1 then s.trunk.counters
          else { s.trunk.counters with unexpected := min 65535 (s.trunk.counters.unexpected + 1) }
        | .idle | .hold _ | .join _ | .leave => s.trunk.counters) := by
  have hcur : ((s.heardReply payload v).countSequence r v).trunk.current = some x := by
    rw [State.countSequence_trunk, State.heardReply_trunk]; exact hx
  rw [State.releaseTarget_trunk hcur, State.countSequence_trunk, State.heardReply_trunk] at hu
  rw [hu]
  exact ⟨rfl, rfl⟩

/-- A reply that delivers nothing: the reserved buffer goes back with its length of before, as every buffer that a
message gives back keeps its length (R95, R156, R161). -/
theorem State.buffer_returned {v : Reply} {payload : List Byte} {w' : State} {r' : Record} {fin : List BufNo}
    (hx : s.trunk.current = some x) (hw : ∀ c, w'.buffer c = (s.heardReply payload v).buffer c) (c : BufNo) :
    ((w'.touch i r r' (fin ++ x.reserved.toList)).releaseTarget.returnLength (s.takePayload payload) v).buffer c =
      if x.reserved = some c ∨ c ∈ fin then { s.buffer c with place := .free } else s.buffer c := by
  have hx0 : (s.takePayload payload).trunk.current = some x := by rw [State.takePayload_frame]; exact hx
  have hb0 : ∀ c, (s.takePayload payload).buffer c = s.buffer c := fun c => by rw [State.takePayload_frame]; rfl
  have touched : ∀ c, (w'.touch i r r' (fin ++ x.reserved.toList)).releaseTarget.buffer c =
      if x.reserved = some c ∨ c ∈ fin then { (s.heardReply payload v).buffer c with place := .free }
      else (s.heardReply payload v).buffer c := fun c => by
    rw [State.releaseTarget_buffer, State.buffer_touch, hw]
    refine if_congr ?_ rfl rfl
    simp [or_comm]
  have heard := State.heardReply_buffer (v := v) hx payload
  by_cases hd : x.reserved = none ∨ ∀ n, v.kind ≠ .data n
  · have plain : ∀ c, (s.heardReply payload v).buffer c = s.buffer c := fun c => by
      rw [heard]
      rcases hd with hd | hd
      · cases v.kind <;> simp [hd]
      · cases hv : v.kind
        case data n => exact absurd hv (hd n)
        all_goals rfl
    rw [State.returnLength_none hx0 hd, touched, plain]
  · obtain ⟨hres, n, hv⟩ : (∃ b, x.reserved = some b) ∧ ∃ n, v.kind = .data n := by
      push Not at hd
      exact ⟨Option.ne_none_iff_exists'.1 hd.1, hd.2⟩
    obtain ⟨b, hb⟩ := hres
    have free : ((w'.touch i r r' (fin ++ x.reserved.toList)).releaseTarget.buffer b).place = .free := by
      rw [touched, if_pos (.inl hb)]
    rw [State.returnLength_data hx0 hb hv, if_pos free, State.buffer_setBuffer, hb0, touched, touched]
    by_cases e : b = c
    · subst e
      rw [if_pos rfl, if_pos (.inl hb), if_pos (.inl hb)]
    · have plain : (s.heardReply payload v).buffer c = s.buffer c := by
        rw [heard, hv]
        exact if_neg (by rw [hb]; simpa using e)
      rw [if_neg e, plain]

/-- A delivered message's buffer, and those a finished message gives back (R94). -/
theorem State.buffer_delivered {v : Reply} {payload : List Byte} {r' : Record} {fin : List BufNo} {b : BufNo} {n : Nat}
    {source : Handle} {address : Byte} (hx : s.trunk.current = some x) (hb : x.reserved = some b)
    (hv : v.kind = .data n) (p : Port) (ch : Channel) (c : BufNo) :
    ((((((s.heardReply payload v).touch i r r' fin).setBuffer b
      { length := n, place := .delivered source address }).setPort ch p).releaseTarget).returnLength
        (s.takePayload payload) v).buffer c =
      if x.reserved = some c then { length := n, place := .delivered source address }
      else if c ∈ fin then { s.buffer c with place := .free } else s.buffer c := by
  have hx0 : (s.takePayload payload).trunk.current = some x := by rw [State.takePayload_frame]; exact hx
  have set : ∀ c, ((((s.heardReply payload v).touch i r r' fin).setBuffer b
      { length := n, place := .delivered source address }).setPort ch p).releaseTarget.buffer c =
      if b = c then { length := n, place := .delivered source address }
      else if c ∈ fin then { (s.heardReply payload v).buffer c with place := .free }
      else (s.heardReply payload v).buffer c := fun c => by
    rw [State.releaseTarget_buffer, State.setPort_buffer, State.buffer_setBuffer, State.buffer_touch]
  rw [State.returnLength_data hx0 hb hv, if_neg (by rw [set, if_pos rfl]; simp), set, hb]
  by_cases e : b = c
  · rw [if_pos e, if_pos (by rw [e])]
  · have plain : (s.heardReply payload v).buffer c = s.buffer c := by
      rw [State.heardReply_buffer hx, hv]
      exact if_neg (by rw [hb]; simpa using e)
    rw [if_neg e, plain]
    exact (if_neg (by simpa using e)).symm

theorem State.countSequence_buffer (s : State) (r : Record) (v : Reply) (c : BufNo) :
    (s.countSequence r v).buffer c = s.buffer c := by
  unfold State.countSequence
  split <;> rfl

theorem State.countSequence_mem (s : State) (r : Record) (v : Reply) :
    (s.countSequence r v).pool.mem = s.pool.mem := by
  unfold State.countSequence
  split <;> rfl

/-- A delivery changes the owner's delivery queue beside the frame of an outcome (R94). -/
theorem OutcomeFrame.of_delivery {s t : State} {r' : Record} {freed : List BufNo} (h : OutcomeFrame s t i r r' freed)
    (queue : List BufNo) :
    OutcomeFrame s (t.setPort r.owner { t.port r.owner with deliveryQueue := queue }) i r r' freed where
  registry := (t.setPort_registry ..).trans h.registry
  poll := (t.setPort_poll ..).trans h.poll
  adm := (t.setPort_adm ..).trans h.adm
  free := by rw [State.setPort_pool]; exact h.free
  floor := by rw [State.setPort_pool]; exact h.floor
  owner := by rw [State.port_setPort_same, h.owner]
  other := (t.port_setPort_other ..).trans h.other
  rest := by
    obtain ⟨h1, h2, h3, h4⟩ := h.rest
    exact ⟨(t.setPort_pending ..).trans h1, (t.setPort_resetIn ..).trans h2, (t.setPort_lineCause ..).trans h3,
      (t.setPort_servedLast ..).trans h4⟩

/-- What a valid reply leaves is what `Replied` says. -/
theorem State.replied_repliedState {bytes : List Byte} {lost : Bool} {v : Reply} (hx : s.trunk.current = some x)
    (hr : s.record i = some r) (hm : r.state.isMember = true) (hwf : Memory.wf s.pool.mem = true)
    (hb : ∀ b, x.outbound = some b → b ∈ r.outq) (hq : r.outq.Nodup) :
    Replied s (s.repliedState i r x v (dataPayloadTaken bytes lost)) i r x v (dataPayloadTaken bytes lost) := by
  have same := s.sameRecords_heardReply (dataPayloadTaken bytes lost) v
  have wrote := State.wrote_takePayload hx hwf bytes lost
  cases ht : r.takes x v with
  | false =>
    have hu := State.repliedState_of_not_takes hr hm hb hq ht (dataPayloadTaken bytes lost)
    dsimp only at hu
    have sameC := same.trans (State.sameRecords_countSequence _ r v)
    have frame := sameC.outcomeFrame_touch i r (r.replied s.poll.slowDivisor s.trunk.health.retryLimit x v)
      (finishedBuffer x (r.replied s.poll.slowDivisor s.trunk.health.retryLimit x v) ++ x.reserved.toList)
    have frame' := (frame.of_sameRecords (State.sameRecords_releaseTarget _)).of_sameRecords
      (State.sameRecords_returnLength _ (s.takePayload (dataPayloadTaken bytes lost)) v)
    rw [← hu] at frame'
    obtain ⟨trunk, counters⟩ := State.replied_trunk (u := s.repliedState i r x v (dataPayloadTaken bytes lost)) hx (by
      rw [hu, (State.returnLength_frame _ _ v).1, State.releaseTarget, State.touch_trunk]; rfl)
    refine ⟨?_, fun b => ?_, ?_, ?_, counters, trunk⟩
    · rw [ht]; exact frame'
    · rw [hu, State.buffer_returned hx (State.countSequence_buffer _ r v), ht]
      exact (if_neg fun h => absurd h.1 (by decide)).symm
    · rw [hu, (State.sameRecords_returnLength _ _ v).port, State.releaseTarget_port, State.port_touch_same, sameC.port, ht]
      simp
    · rw [hu, (State.returnLength_frame _ _ v).2, State.releaseTarget_pool, State.touch_pool, State.freeAll_mem,
        State.countSequence_mem, State.heardReply_mem]
      exact wrote
  | true =>
    obtain ⟨b, n, hres, hv, hns, hu⟩ := State.repliedState_of_takes hr hm hb hq ht (dataPayloadTaken bytes lost)
    dsimp only at hu
    have frame := (same.outcomeFrame_touch i r (r.replied s.poll.slowDivisor s.trunk.health.retryLimit x v)
      (finishedBuffer x (r.replied s.poll.slowDivisor s.trunk.health.retryLimit x v))).of_sameRecords
        (State.sameRecords_setBuffer _ b { length := n, place := .delivered (s.handle i) r.address })
    have delivered := fun queue => ((frame.of_delivery queue).of_sameRecords
      (State.sameRecords_releaseTarget _)).of_sameRecords
        (State.sameRecords_returnLength _ (s.takePayload (dataPayloadTaken bytes lost)) v)
    obtain ⟨trunk, counters⟩ := State.replied_trunk (u := s.repliedState i r x v (dataPayloadTaken bytes lost)) hx (by
      rw [hu, (State.returnLength_frame _ _ v).1, State.countSequence_of_takes ht, State.releaseTarget,
        State.setPort_trunk, State.setBuffer_trunk, State.touch_trunk]
      rfl)
    refine ⟨?_, fun c => ?_, ?_, ?_, counters, trunk⟩
    · rw [ht, if_pos rfl, List.append_nil, hu]
      exact delivered _
    · rw [hu, State.buffer_delivered hx hres hv, ht, hv]
      by_cases e : x.reserved = some c
      · rw [if_pos e]
        exact (if_pos ⟨rfl, e⟩).symm
      · rw [if_neg e]
        refine Eq.trans ?_ (if_neg fun h => e h.2).symm
        exact if_congr (by simp [e]) rfl rfl
    · rw [hu, (State.sameRecords_returnLength _ _ v).port, State.releaseTarget_port, State.port_setPort_same,
        State.setBuffer_port, State.port_touch_same, same.port, ht, hres]
      rfl
    · rw [hu, (State.returnLength_frame _ _ v).2, State.releaseTarget_pool, State.setPort_pool]
      refine Eq.mp ?_ wrote
      rw [← State.heardReply_mem s (dataPayloadTaken bytes lost) v, ← State.freeAll_mem (s.heardReply
        (dataPayloadTaken bytes lost) v) (finishedBuffer x (r.replied s.poll.slowDivisor s.trunk.health.retryLimit x v))]
      rfl

/-- REPLY_RECEIVED in an open window of POLL, DATA or ADMIT (R64, R65). -/
theorem exec_replyReceived (running : s.resetIn = false) (hline : s.trunk.line = .awaiting)
    (hx : s.trunk.current = some x) (hk : x.kind = .poll ∨ x.kind = .data ∨ x.kind = .admitExchange)
    (hopen : s.windowOpen = true) (bytes : List Byte) :
    exec (.replyReceived bytes) s = .next (s.replyEnds bytes false) := by
  have phase : s.inPhase .awaiting replyKinds = true := by
    rw [State.inPhase_eq hx, hline]
    rcases hk with hk | hk | hk <;> rw [hk] <;> rfl
  rw [show exec (.replyReceived bytes) s = execReplyReceived bytes s from rfl, execReplyReceived,
    unlessReset_running _ running, phase, hopen]
  rfl

/-- Settles O37: the reply judged valid, and the steps of R89 with or without a delivery. -/
theorem validReplyFromMember : Obligations.ValidReplyFromMember := by
  unfold Obligations.ValidReplyFromMember
  intro s bytes h r x v running hline hopen hx hk ht hr hm hv hwf hq hb
  refine ⟨s.repliedState h.slot r x v (dataPayloadTaken bytes false),
    State.replied_repliedState hx hr hm hwf hb hq, ?_⟩
  rw [exec_replyReceived running hline hx (by tauto) hopen, State.replyEnds_valid hx hk ht hr hm hv]

end Sys2Proof.Machine
end

section
/-! A miss in POLL or DATA by a member, by timeout or by an invalid reply (R90, R92, R97, R100). -/

namespace Sys2Proof.Machine

variable {s : State} {i : SlotNo} {r : Record} {x : Exchange}

/-! ### The record -/

/-- A message that was sent and not acknowledged, if one was (R90, R92). -/
def Record.unanswered (r : Record) (retryLimit : Nat) (x : Exchange) : Record :=
  match x.outbound with
  | some b => r.unacknowledged retryLimit b
  | none => r

theorem Record.missed_eq (r : Record) (h : Health) (x : Exchange) :
    r.missed h x = (r.unanswered h.retryLimit x).counted h.silenceThreshold := rfl

theorem Record.follows_unanswered (r : Record) (retryLimit : Nat) (x : Exchange) :
    r.Follows (r.unanswered retryLimit x) := by
  unfold Record.unanswered
  split
  · exact r.follows_unacknowledged ..
  · exact .refl r

@[simp] theorem Record.unanswered_state (r : Record) (retryLimit : Nat) (x : Exchange) :
    (r.unanswered retryLimit x).state = r.state := by
  unfold Record.unanswered
  split
  · exact r.unacknowledged_state ..
  · rfl

theorem Record.unanswered_failedProbes (r : Record) (retryLimit : Nat) (x : Exchange) :
    (r.unanswered retryLimit x).failedProbes = r.failedProbes := by
  unfold Record.unanswered Record.unacknowledged
  split
  · dsimp only
    split <;> rfl
  · rfl

/-- The attempt that a miss counts, where a message was sent (R90). -/
def State.attempted (s : State) (i : SlotNo) (x : Exchange) : State :=
  match x.outbound with
  | some b => s.countAttempt i b
  | none => s

/-- The record of a member that missed, before the guard: its attempt, then its miss (R90). -/
theorem State.missed_eq_touch (hr : s.record i = some r) (hm : r.state.isMember = true)
    (hb : ∀ b, x.outbound = some b → b ∈ r.outq) (hq : r.outq.Nodup) :
    (s.attempted i x).countMiss i = s.touch i r (r.missed s.trunk.health x)
        (finishedBuffer x (r.missed s.trunk.health x)) := by
  have attempt : s.attempted i x = s.touch i r (r.unanswered s.trunk.health.retryLimit x)
      (finishedBuffer x (r.unanswered s.trunk.health.retryLimit x)) := by
    unfold State.attempted Record.unanswered
    cases ho : x.outbound with
    | none =>
      dsimp only
      rw [finishedBuffer_of_mem fun b h => hb b h, State.touch_self hr, State.freeAll_nil]
    | some b =>
      dsimp only
      rw [finishedBuffer_unacknowledged _ ho hq (hb b ho)]
      exact State.countAttempt_eq_touch hr (RecState.isMember_ne_retired hm) (hb b ho)
  rw [attempt, State.countMiss_eq_touch (State.record_touch_same ..), State.touch_trunk,
    State.touch_touch i (r.follows_unanswered ..) (Record.follows_counted ..), List.append_nil, Record.missed_eq,
    finishedBuffer_congr (Record.counted_outq ..)]

/-- The miss that makes a record LOST (R97). -/
theorem State.isLost_eq {t : State} {h : Health} (ht : t.record i = some (r.missed h x)) (hh : t.trunk.health = h) :
    t.isLost r i = r.lostBy h := by
  rw [State.isLost, ht, Record.lostBy, hh]
  dsimp only
  by_cases hs : r.state = .silent
  · have probes : (r.missed h x).failedProbes = some (min 255 (r.failedProbes.getD 0 + 1)) := by
      rw [Record.missed_eq, Record.counted, Record.unanswered_state, hs, Record.unanswered_failedProbes]
    rw [probes]
    rfl
  · simp [hs]

/-! ### The miss -/

/-- The state that a member's miss leaves, up to the release of the target (R90, R95). -/
def State.missedState (w : State) (i : SlotNo) (r : Record) (x : Exchange) : State :=
  (w.touch i r (r.missed w.trunk.health x)
    (finishedBuffer x (r.missed w.trunk.health x) ++ x.reserved.toList)).releaseTarget

theorem State.missed_eq (hr : s.record i = some r) (hm : r.state.isMember = true)
    (hb : ∀ b, x.outbound = some b → b ∈ r.outq) (hq : r.outq.Nodup) : s.missed i r x =
      if r.lostBy s.trunk.health = true then (s.missedState i r x).enterRetirement i .lost false
      else s.missedState i r x := by
  have steps : s.missed i r x =
      let t := (s.attempted i x).countMiss i
      if t.isLost r i then (t.freeReserved x).releaseTarget.enterRetirement i .lost false
      else (t.freeReserved x).releaseTarget := rfl
  rw [steps]
  dsimp only
  rw [State.missed_eq_touch hr hm hb hq, State.isLost_eq (State.record_touch_same ..) (by rw [State.touch_trunk]),
    State.touch_freeReserved]
  rfl

theorem State.outcome_none_member {h : Handle} (hx : s.trunk.current = some x) (hk : x.kind = .poll ∨ x.kind = .data)
    (ht : x.target = some h) (hr : s.record h.slot = some r) (hm : r.state.isMember = true)
    (hb : ∀ b, x.outbound = some b → b ∈ r.outq) (hq : r.outq.Nodup) : s.outcome none =
      if r.lostBy s.trunk.health = true then ((s.faultMiss.missedState h.slot r x).enterRetirement h.slot .lost false).toGuard
      else (s.faultMiss.missedState h.slot r x).toGuard := by
  rw [State.outcome_pollData hx hk ht]
  refine (congrArg State.toGuard (State.pollDataOutcome_member (s := s.faultMiss) hr hm x none)).trans ?_
  dsimp only
  rw [State.missed_eq (s := s.faultMiss) hr hm hb hq]
  split <;> rename_i hl
  · exact (if_pos hl).symm
  · exact (if_neg hl).symm

/-- What a miss leaves is what `Missed` says, in a state that has counted it and taken the payload of the reply. -/
theorem State.missed_missedState {w : State} (same : s.SameRecords w) (hx : s.trunk.current = some x)
    (hbuf : ∀ c, w.buffer c = s.buffer c) (hw : w.trunk = { s.trunk with counters := w.trunk.counters }) :
    Missed s (w.faultMiss.missedState i r x) i r x := by
  have hh : w.faultMiss.trunk.health = s.trunk.health := by
    rw [show w.faultMiss.trunk.health = w.trunk.health from rfl, hw]
  have hsame : s.SameRecords w.faultMiss := same.trans (State.sameRecords_updTrunk _ _)
  have frame := (hsame.outcomeFrame_touch i r (r.missed s.trunk.health x)
    (finishedBuffer x (r.missed s.trunk.health x) ++ x.reserved.toList)).of_sameRecords (State.sameRecords_releaseTarget _)
  unfold State.missedState
  rw [hh]
  refine ⟨frame, fun b => ?_, ?_, ?_⟩
  · rw [State.releaseTarget_buffer, State.buffer_touch, show w.faultMiss.buffer b = w.buffer b from rfl, hbuf]
    refine if_congr ?_ rfl rfl
    simp [or_comm]
  · rw [State.releaseTarget_port, State.port_touch_same, hsame.port]
  · have hcur : (w.faultMiss.touch i r (r.missed s.trunk.health x)
        (finishedBuffer x (r.missed s.trunk.health x) ++ x.reserved.toList)).trunk.current = some x := by
      rw [State.touch_trunk, show w.faultMiss.trunk.current = w.trunk.current from rfl, hw]; exact hx
    rw [State.releaseTarget_trunk hcur, State.touch_trunk]
    rw [show w.faultMiss.trunk = { w.trunk with
      faultRun := min 255 (w.trunk.faultRun + 1)
      faultDue := w.trunk.faultDue || decide (w.trunk.health.faultThreshold ≤ min 255 (w.trunk.faultRun + 1)) } from rfl, hw]

/-- REPLY_TIMEOUT with no reply begun (R63). -/
theorem exec_replyTimeout (running : s.resetIn = false) (hline : s.trunk.line = .awaiting)
    (hx : s.trunk.current = some x) (hk : x.kind = .poll ∨ x.kind = .data ∨ x.kind = .admitExchange)
    (hrec : s.trunk.receiving = false) : exec .replyTimeout s = .next s.missByTimeout := by
  have phase : s.inPhase .awaiting replyKinds = true := by
    rw [State.inPhase_eq hx, hline]
    rcases hk with hk | hk | hk <;> rw [hk] <;> rfl
  rw [show exec .replyTimeout s = execReplyTimeout s from rfl, execReplyTimeout, unlessReset_running _ running, phase,
    hrec]
  rfl

/-- A reply judged invalid: its counter, and then a miss (R65, R74). -/
theorem State.replyEnds_invalid {bytes : List Byte} {lost : Bool} {e : FrameError} (hx : s.trunk.current = some x)
    (hv : judge x.kind s.expectedAddress (receive bytes lost) = .invalid e) : s.replyEnds bytes lost =
      ((s.takePayload (dataPayloadTaken bytes lost)).updCounters fun c => c.countReply e).outcome none := by
  have hexp : (s.takePayload (dataPayloadTaken bytes lost)).expectedAddress = s.expectedAddress := by
    rw [State.takePayload_frame]; rfl
  rw [State.replyEnds, State.exchangeKind, hx, Option.map_some]
  dsimp only
  rw [hexp, hv]

theorem Counters.countReply_eq (n : Counters) (e : FrameError) : n.countReply e =
    match e with
    | .opening | .format => { n with format := min 65535 (n.format + 1) }
    | .check => { n with check := min 65535 (n.check + 1) }
    | .stray => { n with stray := min 65535 (n.stray + 1) }
    | .unexpected => { n with unexpected := min 65535 (n.unexpected + 1) } := by
  cases e <;> rfl

/-- Settles O38: a timeout and an invalid reply are the same miss, with the counter of each. -/
theorem missByMember : Obligations.MissByMember := by
  unfold Obligations.MissByMember
  intro s h r x running hline hx hk ht hr hm hwf hq hb ends n
  have hk3 : x.kind = .poll ∨ x.kind = .data ∨ x.kind = .admitExchange := by tauto
  refine ⟨fun hrec => ?_, fun bytes e hopen hv => ?_⟩
  · let w := s.updCounters fun c => { c with timeout := countUp c.timeout }
    have same : s.SameRecords w := State.sameRecords_updTrunk s fun t => { t with
      counters := { t.counters with timeout := countUp t.counters.timeout } }
    refine ⟨w.faultMiss.missedState h.slot r x, State.missed_missedState same hx (fun c => rfl) rfl, ?_, ?_, ?_⟩
    · unfold State.missedState
      rw [State.releaseTarget_pool, State.touch_pool, State.freeAll_mem]
      rfl
    · unfold State.missedState
      rw [State.releaseTarget, State.touch_trunk]
      rfl
    · rw [exec_replyTimeout running hline hx hk3 hrec, State.missByTimeout]
      exact congrArg _ (State.outcome_none_member (s := w) hx hk ht hr hm hb hq)
  · let w := (s.takePayload (dataPayloadTaken bytes false)).updCounters fun c => c.countReply e
    have hw : w.trunk = { s.trunk with counters := s.trunk.counters.countReply e } := by
      unfold w
      rw [State.takePayload_frame]
      rfl
    have same : s.SameRecords w := (s.sameRecords_takePayload _).trans (State.sameRecords_updTrunk _ fun t => { t with
      counters := t.counters.countReply e })
    refine ⟨w.faultMiss.missedState h.slot r x, State.missed_missedState same hx (fun c => ?_) (by rw [hw]), ?_, ?_, ?_⟩
    · unfold w
      rw [State.takePayload_frame]
      rfl
    · unfold State.missedState
      rw [State.releaseTarget_pool, State.touch_pool, State.freeAll_mem]
      exact State.wrote_takePayload hx hwf bytes false
    · unfold State.missedState
      rw [State.releaseTarget, State.touch_trunk]
      exact (congrArg Trunk.counters hw).trans (Counters.countReply_eq ..)
    · rw [exec_replyReceived running hline hx hk3 hopen, State.replyEnds_invalid hx hv]
      have := State.outcome_none_member (s := w) (by rw [hw]; exact hx) hk ht ((same.record _).trans hr) hm hb hq
      rw [hw] at this
      exact congrArg _ this

end Sys2Proof.Machine
end

section
/-! The outcome of ADMIT (R14, R15, R85). -/

namespace Sys2Proof.Machine

variable {s : State} {i : SlotNo} {r : Record} {x : Exchange}

theorem State.releaseTarget_eq (hx : s.trunk.current = some x) :
    s.releaseTarget = { s with trunk := { s.trunk with current := some x.released } } := by
  rw [State.releaseTarget, hx]
  rfl

theorem State.post_releaseTarget (s : State) (i : SlotNo) (why : Reason) :
    (s.post i why).releaseTarget = s.releaseTarget.post i why := by
  unfold State.post
  rw [State.releaseTarget_record]
  cases s.record i with
  | none => rfl
  | some r =>
    dsimp only
    split
    · rfl
    · split
      · cases r.owner <;> rfl
      · rfl

theorem State.outcome_admit {h : Handle} (hx : s.trunk.current = some x) (hk : x.kind = .admitExchange)
    (ht : x.target = some h) (reply : Option Reply) : s.outcome reply =
      ((if reply.isSome then s.faultClear else s.faultMiss).admitOutcome h.slot reply).toGuard := by
  rw [State.outcome_eq hx ht, hk]

/-- A record that is ADMITTING and replies is confirmed (R14). -/
theorem State.admitOutcome_valid (hr : s.record i = some r) (hs : r.state = .admitting)
    (hx : s.trunk.current = some x) (v : Reply) : s.admitOutcome i (some v) =
      State.post { s with
        registry := { s.registry with
          slots := s.registry.slots.set i { s.slot i with record := some { r with
            state := .active, admitAttempts := none, skip := some 0, missCount := some 0, sendSeq := 0, recvSeq := 0
            replies := min 65535 (r.replies + 1) } }
          admitQueue := s.registry.admitQueue.erase i }
        poll := { s.poll with ring := s.poll.ring ++ [i] }
        trunk := { s.trunk with current := some x.released } } i .admitted := by
  rw [State.admitOutcome, hr]
  dsimp only
  rw [hs]
  dsimp only
  rw [State.confirm, State.post_releaseTarget, State.updRecord_some _ _ hr]
  exact congrArg (State.post · i .admitted) (State.releaseTarget_eq (s := ((s.setRecord i _).removeAdmit i).appendRing i) hx)

/-- A failed ADMIT: the Admit Queue's tail, or at the third retirement (R15). -/
theorem State.admitOutcome_miss (hr : s.record i = some r) (hs : r.state = .admitting)
    (hx : s.trunk.current = some x) : s.admitOutcome i none =
      let attempts := r.admitAttempts.getD 0 + 1
      let s1 : State := { s with
        registry := { s.registry with
          slots := s.registry.slots.set i { s.slot i with record := some { r with admitAttempts := some attempts } } }
        trunk := { s.trunk with current := some x.released } }
      if attempts < 3 then { s1 with registry := { s1.registry with admitQueue := s.registry.admitQueue.erase i ++ [i] } }
      else s1.enterRetirement i .admitFailed false := by
  let s1 : State := s.setRecord i (some { r with admitAttempts := some (r.admitAttempts.getD 0 + 1) })
  have fails : s.admitOutcome i none = s.admitFailed i r := by
    rw [State.admitOutcome, hr]
    dsimp only
    rw [hs]
  have again : ((s1.removeAdmit i).joinAdmit i).releaseTarget = _ := State.releaseTarget_eq hx
  have third : s1.releaseTarget = _ := State.releaseTarget_eq hx
  rw [fails, State.admitFailed]
  exact ite_congr rfl (fun _ => again) fun _ => congrArg (State.enterRetirement · i .admitFailed false) third

/-- Settles O39: a valid reply confirms; a timeout and an invalid reply are the same failed attempt. -/
theorem admitOutcome : Obligations.AdmitOutcome := by
  unfold Obligations.AdmitOutcome
  intro s h r x running hline hx hk hres ht hr hs i
  have taken : ∀ payload, s.takePayload payload = s := fun payload => by rw [State.takePayload_eq hx, hres]
  have hk3 : x.kind = .poll ∨ x.kind = .data ∨ x.kind = .admitExchange := .inr (.inr hk)
  refine ⟨fun bytes v hopen hv => ?_, ?_⟩
  · rw [exec_replyReceived running hline hx hk3 hopen]
    have ends : s.replyEnds bytes false = (s.outcome (some v)).returnLength s v := by
      rw [State.replyEnds, State.exchangeKind, hx, Option.map_some]
      dsimp only
      rw [taken, hk, hv]
      dsimp only
      rw [State.takeLength_none hx (.inl hres)]
    rw [ends, State.returnLength_none hx (.inl hres), State.outcome_admit hx hk ht]
    exact congrArg (fun u : State => Host.Outcome.next u.toGuard)
      (State.admitOutcome_valid (s := s.faultClear) hr hs hx v)
  · intro attempts n failed
    have miss : ∀ f : Counters → Counters, (s.updCounters f).outcome none = failed (f n) := fun f => by
      rw [State.outcome_admit (s := s.updCounters f) hx hk ht]
      refine (congrArg State.toGuard (State.admitOutcome_miss (s := (s.updCounters f).faultMiss) hr hs hx)).trans ?_
      exact apply_ite State.toGuard ..
    refine ⟨fun hrec => ?_, fun bytes e hopen hv => ?_⟩
    · rw [exec_replyTimeout running hline hx hk3 hrec, State.missByTimeout, miss] <;> rfl
    · rw [exec_replyReceived running hline hx hk3 hopen, State.replyEnds_invalid hx (hk ▸ hv), taken, miss,
        Counters.countReply_eq] <;> rfl

end Sys2Proof.Machine
end

section
/-! A change of the trunk and of the buffer pool that the operations on records do not see: each of them commutes with
it. The clock watch and the lengths of R161 are of this kind. -/

namespace Sys2Proof.Machine

/-- The state with its trunk and its pool changed. -/
def State.dress (f : Trunk → Trunk) (g : Pool → Pool) (s : State) : State :=
  { s with trunk := f s.trunk, pool := g s.pool }

/-- The trunk with its exchange's target released (R81). -/
def Trunk.released (t : Trunk) : Trunk := { t with current := t.current.map Exchange.released }

/-- The pool with a buffer at the tail of the free buffer list. -/
def Pool.freed (p : Pool) (b : BufNo) : Pool :=
  { p with buffers := p.buffers.set b { p.buffers[b] with place := .free }, free := p.free ++ [b] }

/-- A change that leaves what the operations on records read, and that the ones on trunk and pool pass by. -/
structure Unseen (f : Trunk → Trunk) (g : Pool → Pool) : Prop where
  current : ∀ t, (f t).current = t.current
  health : ∀ t, (f t).health = t.health
  released : ∀ t, f t.released = (f t).released
  freed : ∀ p b, g (p.freed b) = (g p).freed b

section
variable {f : Trunk → Trunk} {g : Pool → Pool} (u : Unseen f g) (s : State) (i : SlotNo) (b : BufNo) (x : Exchange)

@[simp] theorem State.record_dress : (s.dress f g).record i = s.record i := rfl

theorem State.setRecord_dress (r : Option Record) :
    (s.dress f g).setRecord i r = (s.setRecord i r).dress f g := rfl

theorem State.updRecord_dress (h : Record → Record) :
    (s.dress f g).updRecord i h = (s.updRecord i h).dress f g := by
  unfold State.updRecord
  rw [State.record_dress]
  cases s.record i <;> rfl

theorem State.post_dress (why : Reason) : (s.dress f g).post i why = (s.post i why).dress f g := by
  unfold State.post
  rw [State.record_dress]
  cases s.record i with
  | none => rfl
  | some r =>
    dsimp only
    split
    · rfl
    · split
      · cases r.owner <;> rfl
      · rfl

theorem State.removeRing_dress : (s.dress f g).removeRing i = (s.removeRing i).dress f g := by
  unfold State.removeRing
  rw [apply_ite (State.dress f g)]
  rfl

theorem State.enterRetired_dress : (s.dress f g).enterRetired i = (s.enterRetired i).dress f g := by
  unfold State.enterRetired
  rw [State.record_dress]
  cases s.record i with
  | none => rfl
  | some r =>
    dsimp only
    rw [show (s.dress f g).setIndex r.address none = (s.setIndex r.address none).dress f g from rfl,
      State.updRecord_dress, State.post_dress, State.updRecord_dress]

include u

theorem State.freeBuffer_dress : (s.dress f g).freeBuffer b = (s.freeBuffer b).dress f g :=
  congrArg (fun p => ({ s with trunk := f s.trunk, pool := p } : State)) (u.freed s.pool b).symm

theorem State.releaseTarget_dress : (s.dress f g).releaseTarget = s.releaseTarget.dress f g :=
  congrArg (fun t => ({ s with trunk := t, pool := g s.pool } : State)) (u.released s.trunk).symm

theorem State.freeUndelivered_dress (bs : List BufNo) :
    (s.dress f g).freeUndelivered i bs = (s.freeUndelivered i bs).dress f g := by
  induction bs generalizing s with
  | nil => rfl
  | cons b bs ih => rw [State.freeUndelivered, State.freeBuffer_dress u, State.post_dress, ih, State.freeUndelivered]

theorem State.holds_dress : (s.dress f g).holds i = s.holds i := by
  unfold State.holds
  rw [show (s.dress f g).trunk.current = s.trunk.current from u.current _]

theorem State.carried_dress : (s.dress f g).carried i = s.carried i := by
  unfold State.carried
  rw [State.holds_dress u, show (s.dress f g).trunk.current = s.trunk.current from u.current _]

theorem State.settleRetiring_dress : (s.dress f g).settleRetiring i = (s.settleRetiring i).dress f g := by
  unfold State.settleRetiring
  rw [State.record_dress, State.holds_dress u]
  cases s.record i with
  | none => rfl
  | some r =>
    dsimp only
    rw [State.enterRetired_dress]
    exact (apply_ite (State.dress f g) ..).symm

theorem State.enterRetirement_dress (cause : RetireCause) (dismiss : Bool) :
    (s.dress f g).enterRetirement i cause dismiss = (s.enterRetirement i cause dismiss).dress f g := by
  unfold State.enterRetirement
  rw [State.record_dress, State.holds_dress u, State.carried_dress u]
  cases s.record i with
  | none => rfl
  | some r =>
    dsimp only
    rw [State.setRecord_dress, State.removeRing_dress, ← apply_ite (State.dress f g),
      show ∀ t : State, (t.dress f g).removeAdmit i = (t.removeAdmit i).dress f g from fun _ => rfl,
      ← apply_ite (State.dress f g), State.freeUndelivered_dress u, State.updRecord_dress, State.enterRetired_dress,
      show ∀ t : State, (t.dress f g).joinDismiss i = (t.joinDismiss i).dress f g from fun _ => rfl,
      ← apply_ite (State.dress f g), ← apply_ite (State.dress f g)]

theorem State.freeReserved_dress : (s.dress f g).freeReserved x = (s.freeReserved x).dress f g := by
  unfold State.freeReserved
  cases x.reserved with
  | none => rfl
  | some b => exact State.freeBuffer_dress u s b

theorem State.freeCarried_dress : (s.dress f g).freeCarried i x = (s.freeCarried i x).dress f g := by
  unfold State.freeCarried
  rw [State.record_dress]
  cases x.outbound with
  | none => rfl
  | some b =>
    cases s.record i with
    | none => rfl
    | some r =>
      dsimp only
      rw [State.setRecord_dress, State.freeBuffer_dress u, State.post_dress]
      exact (apply_ite (State.dress f g) ..).symm

theorem State.finishMessage_dress (why : Reason) :
    (s.dress f g).finishMessage i b why = (s.finishMessage i b why).dress f g := by
  unfold State.finishMessage
  rw [State.record_dress]
  cases s.record i with
  | none => rfl
  | some r =>
    dsimp only
    rw [State.setRecord_dress, State.freeBuffer_dress u, State.post_dress]
    exact (apply_ite (State.dress f g) ..).symm

theorem State.countAttempt_dress : (s.dress f g).countAttempt i b = (s.countAttempt i b).dress f g := by
  unfold State.countAttempt
  rw [State.record_dress, show (s.dress f g).trunk.health = s.trunk.health from u.health _]
  cases s.record i with
  | none => rfl
  | some r =>
    dsimp only
    rw [State.setRecord_dress, State.finishMessage_dress u, ← apply_ite (State.dress f g)]
    exact (apply_ite (State.dress f g) ..).symm

theorem State.attempted_dress : (s.dress f g).attempted i x = (s.attempted i x).dress f g := by
  unfold State.attempted
  cases x.outbound with
  | none => rfl
  | some b => exact State.countAttempt_dress u s i b

theorem State.countMiss_dress : (s.dress f g).countMiss i = (s.countMiss i).dress f g := by
  unfold State.countMiss
  rw [State.record_dress, show (s.dress f g).trunk.health = s.trunk.health from u.health _]
  cases s.record i with
  | none => rfl
  | some r =>
    dsimp only
    cases r.state
    case active =>
      dsimp only
      rw [State.setRecord_dress, State.post_dress, State.setRecord_dress]
      exact (apply_ite (State.dress f g) ..).symm
    all_goals rfl

theorem State.isLost_dress (r : Record) : (s.dress f g).isLost r i = s.isLost r i := by
  unfold State.isLost
  rw [State.record_dress, show (s.dress f g).trunk.health = s.trunk.health from u.health _]

theorem State.missed_dress (r : Record) : (s.dress f g).missed i r x = (s.missed i r x).dress f g := by
  have steps : ∀ s : State, s.missed i r x =
      let t := (s.attempted i x).countMiss i
      if t.isLost r i then (t.freeReserved x).releaseTarget.enterRetirement i .lost false
      else (t.freeReserved x).releaseTarget := fun _ => rfl
  rw [steps, steps]
  dsimp only
  rw [State.attempted_dress u, State.countMiss_dress u, State.isLost_dress u, State.freeReserved_dress u,
    State.releaseTarget_dress u, State.enterRetirement_dress u]
  exact (apply_ite (State.dress f g) ..).symm

/-- What remains of an exchange with a RETIRING target (R21, R22): its buffers freed, and the record settled. -/
theorem State.settled_dress :
    (((s.dress f g).freeReserved x).freeCarried i x).releaseTarget.settleRetiring i =
      (((s.freeReserved x).freeCarried i x).releaseTarget.settleRetiring i).dress f g := by
  rw [State.freeReserved_dress u, State.freeCarried_dress u, State.releaseTarget_dress u, State.settleRetiring_dress u]

theorem State.pollDataOutcome_none_dress : (s.dress f g).pollDataOutcome i x none = (s.pollDataOutcome i x none).dress f g := by
  unfold State.pollDataOutcome
  rw [State.record_dress]
  cases s.record i with
  | none =>
    dsimp only
    rw [State.freeReserved_dress u, State.releaseTarget_dress u]
  | some r =>
    dsimp only
    cases r.state
    case active => exact State.missed_dress u s i x r
    case silent => exact State.missed_dress u s i x r
    case suspended => exact State.missed_dress u s i x r
    case retiring => exact State.settled_dress u s i x
    all_goals
      dsimp only
      rw [State.freeReserved_dress u, State.releaseTarget_dress u]

theorem State.admitOutcome_none_dress : (s.dress f g).admitOutcome i none = (s.admitOutcome i none).dress f g := by
  unfold State.admitOutcome
  rw [State.record_dress]
  cases s.record i with
  | none => exact State.releaseTarget_dress u s
  | some r =>
    dsimp only
    cases r.state
    case admitting =>
      dsimp only
      unfold State.admitFailed
      dsimp only
      rw [State.setRecord_dress,
        show ∀ t : State, ((t.dress f g).removeAdmit i).joinAdmit i = ((t.removeAdmit i).joinAdmit i).dress f g
          from fun _ => rfl,
        State.releaseTarget_dress u, State.releaseTarget_dress u, State.enterRetirement_dress u]
      exact (apply_ite (State.dress f g) ..).symm
    case retiring =>
      dsimp only
      rw [State.releaseTarget_dress u, State.settleRetiring_dress u]
    all_goals exact State.releaseTarget_dress u s

end

end Sys2Proof.Machine
end

section
/-! An exchange whose target is RETIRING (R21, R22). -/

namespace Sys2Proof.Machine

variable {s : State} {i : SlotNo} {r : Record} {x : Exchange}

/-! ### The length of one buffer -/

/-- The pool with the length of one buffer changed. -/
def Pool.setLength (b : BufNo) (n : Nat) (p : Pool) : Pool :=
  { p with buffers := p.buffers.set b { p.buffers[b] with length := n } }

theorem unseen_setLength (b : BufNo) (n : Nat) : Unseen id (Pool.setLength b n) where
  current _ := rfl
  health _ := rfl
  released _ := rfl
  freed p c := by
    unfold Pool.setLength Pool.freed
    congr 1
    ext1 k hk
    simp only [Fin.getElem_fin, Vector.getElem_set]
    by_cases hb : b.val = k <;> by_cases hc : c.val = k <;> simp [hb, hc]

theorem State.setLength_setLength (s : State) (b : BufNo) (n m : Nat) :
    (s.dress id (Pool.setLength b n)).dress id (Pool.setLength b m) = s.dress id (Pool.setLength b m) := by
  unfold State.dress Pool.setLength
  simp

theorem State.setLength_self (s : State) (b : BufNo) : s.dress id (Pool.setLength b (s.buffer b).length) = s := by
  have h : s.pool.buffers.set b { s.pool.buffers[b] with length := s.pool.buffers[b].length } = s.pool.buffers :=
    Vector.set_getElem_self ..
  exact congrArg (fun v => ({ s with pool := { s.pool with buffers := v } } : State)) h

/-! ### The buffers freed and the record settled -/

/-- What remains of an exchange whose target is RETIRING: its buffers freed, and the record released and settled. -/
def State.wound (s : State) (i : SlotNo) (x : Exchange) : State :=
  ((s.freeReserved x).freeCarried i x).releaseTarget.settleRetiring i

theorem State.wound_dress {f : Trunk → Trunk} {g : Pool → Pool} (u : Unseen f g) (s : State) (i : SlotNo) (x : Exchange) :
    (s.dress f g).wound i x = (s.wound i x).dress f g := State.settled_dress u s i x

theorem State.freeCarried_pool (s : State) (i : SlotNo) (x : Exchange) : (s.freeCarried i x).pool = s.pool
    ∨ ∃ b, (s.freeCarried i x).pool = s.pool.freed b := by
  unfold State.freeCarried
  cases x.outbound with
  | none => exact .inl rfl
  | some b =>
    cases s.record i with
    | none => exact .inl rfl
    | some r =>
      dsimp only
      split
      · exact .inr ⟨b, by rw [(State.post_frame ..).2.2.2.2.1]; rfl⟩
      · exact .inl rfl

/-- The reserved buffer comes out FREE, its length kept. -/
theorem State.wound_buffer {b : BufNo} (hb : x.reserved = some b) (s : State) (i : SlotNo) :
    (s.wound i x).buffer b = { s.buffer b with place := .free } := by
  have pool : (s.wound i x).pool = ((s.freeReserved x).freeCarried i x).pool := (State.settleRetiring_frame ..).2.2.2.2
  have first : (s.freeReserved x).buffer b = { s.buffer b with place := .free } := by
    rw [State.freeReserved, hb]
    exact (State.buffer_freeBuffer ..).trans (if_pos rfl)
  rw [State.buffer, pool]
  rcases (s.freeReserved x).freeCarried_pool i x with e | ⟨c, e⟩ <;> rw [e]
  · exact first
  · refine (State.buffer_freeBuffer (s := s.freeReserved x) c b).trans ?_
    split
    · next h => rw [h, first]
    · exact first

/-- The buffer at the free buffer list's tail, with the length given. -/
def State.freedAs (s : State) (b : BufNo) (n : Nat) : State := { s with pool := { s.pool with
  buffers := s.pool.buffers.set b { length := n, place := .free }, free := s.pool.free ++ [b] } }

theorem State.freedAs_eq {b : BufNo} {n : Nat} (h : (s.buffer b).length = n) : s.freeBuffer b = s.freedAs b n := by
  subst h
  rfl

/-- A released RETIRING record enters RETIRED unless its dismissal is pending (R22). -/
theorem State.settleRetiring_released (hr : s.record i = some r) (hs : r.state = .retiring) :
    s.releaseTarget.settleRetiring i =
      if r.dismissPending = some false then s.releaseTarget.enterRetired i else s.releaseTarget := by
  have released : s.releaseTarget.holds i = false := by
    unfold State.holds State.releaseTarget
    cases s.trunk.current <;> rfl
  rw [State.settleRetiring, State.releaseTarget_record, hr]
  dsimp only
  exact if_congr (by simp [hs, released]) rfl rfl

theorem State.wound_eq (hx : s.trunk.current = some x) (hr : s.record i = some r) (hs : r.state = .retiring)
    (hq : r.outq = x.outbound.toList) {len : BufNo → Nat} (hlen : ∀ b, (s.buffer b).length = len b) :
    s.wound i x =
      let s1 := match x.reserved with
        | some b => s.freedAs b (len b)
        | none => s
      let s2 := match x.outbound with
        | some b =>
          ((s1.setRecord i (some { r with outq := [], headAttempts := none })).freedAs b (len b)).post i .undelivered
        | none => s1
      let s3 : State := { s2 with trunk := { s2.trunk with current := some x.released } }
      if r.dismissPending = some false then s3.enterRetired i else s3 := by
  have first : s.freeReserved x = (match x.reserved with
      | some b => s.freedAs b (len b)
      | none => s) := by
    unfold State.freeReserved
    cases x.reserved with
    | none => rfl
    | some b => exact State.freedAs_eq (hlen b)
  have len1 : ∀ b, ((s.freeReserved x).buffer b).length = len b := fun b => by
    unfold State.freeReserved
    cases x.reserved with
    | none => exact hlen b
    | some c =>
      dsimp only
      rw [State.buffer_freeBuffer]
      split
      · next h => rw [← h]; exact hlen c
      · exact hlen b
  have hr1 : (s.freeReserved x).record i = some r := by
    unfold State.freeReserved
    cases x.reserved <;> exact hr
  have hx1 : (s.freeReserved x).trunk.current = some x := by
    unfold State.freeReserved
    cases x.reserved <;> exact hx
  unfold State.wound
  dsimp only
  rw [← first]
  generalize s.freeReserved x = t at *
  unfold State.freeCarried
  cases hob : x.outbound with
  | none =>
    dsimp only
    rw [State.settleRetiring_released hr1 hs, State.releaseTarget_eq hx1]
  | some b =>
    rw [hob] at hq
    let q : Record := { r with outq := [], headAttempts := none }
    let w := (t.setRecord i (some q)).freedAs b (len b)
    have hw : w.record i = some q := by
      unfold w
      exact State.record_setRecord_same ..
    have hpost : (w.post i .undelivered).record i = some (q.addReason .undelivered) := by
      rw [State.post_eq_touch hw (by show r.state ≠ _; rw [hs]; decide)]
      exact State.record_touch_same ..
    have hcur : (w.post i .undelivered).trunk.current = some x := by
      rw [(State.post_frame ..).2.2.1]
      exact hx1
    have carried : (if b ∈ r.outq then
        ((t.setRecord i (some { r with
          outq := r.outq.erase b
          headAttempts := if r.outq.erase b = [] then none else r.headAttempts })).freeBuffer b).post i .undelivered
        else t) = w.post i .undelivered := by
      rw [if_pos (by rw [hq]; simp)]
      have erased : r.outq.erase b = [] := by rw [hq]; simp
      rw [erased, if_pos rfl]
      exact congrArg (State.post · i .undelivered) (State.freedAs_eq (s := t.setRecord i (some q)) (len1 b))
    rw [hr1]
    dsimp only
    rw [carried, State.settleRetiring_released hpost hs, State.releaseTarget_eq hcur]
    rfl

/-! ### The outcome -/

/-- The outcome of an exchange whose target is RETIRING, by its state counted (R21, R74, R100). -/
theorem State.outcome_retiring {h : Handle} (hx : s.trunk.current = some x) (ht : x.target = some h)
    (hr : s.record h.slot = some r) (hs : r.state = .retiring) (hk : (x.kind = .poll ∨ x.kind = .data)
      ∨ x.kind = .admitExchange ∧ x.reserved = none ∧ x.outbound = none) (reply : Option Reply)
    (hseq : x.kind = .admitExchange → r.outOfSequence reply = false) : s.outcome reply =
      (State.wound
        (let s1 := if reply.isSome then s.faultClear else s.faultMiss
         if r.outOfSequence reply = true then s1.updCounters fun c => { c with unexpected := countUp c.unexpected }
         else s1) h.slot x).toGuard := by
  have hr1 : (if reply.isSome then s.faultClear else s.faultMiss).record h.slot = some r := by
    split <;> exact hr
  rw [State.outcome_eq hx ht]
  generalize (if reply.isSome then s.faultClear else s.faultMiss) = t at *
  rcases hk with hk | ⟨hk, hres, hout⟩
  · have retired : t.pollDataOutcome h.slot x reply = t.retiringOutcome h.slot r x reply := by
      rw [State.pollDataOutcome, hr1]
      dsimp only
      rw [hs]
    rcases hk with hk | hk <;> rw [hk] <;> exact congrArg State.toGuard retired
  · have retired : t.admitOutcome h.slot reply = t.releaseTarget.settleRetiring h.slot := by
      rw [State.admitOutcome, hr1]
      dsimp only
      rw [hs]
    rw [hk, hseq hk]
    dsimp only
    rw [retired, State.wound, State.freeReserved, State.freeCarried, hres, hout]
    rfl

/-- The payload's length does not outlast an outcome that frees the reserved buffer (R161). -/
theorem State.returnLength_wound {b : BufNo} {v : Reply} {n : Nat} {before : State}
    (hx : before.trunk.current = some x) (hb : x.reserved = some b) (hv : v.kind = .data n)
    (hlen : (before.buffer b).length = (s.buffer b).length) :
    ((s.dress id (Pool.setLength b n)).wound i x).toGuard.returnLength before v = (s.wound i x).toGuard := by
  have hbuf : (s.wound i x).buffer b = { s.buffer b with place := .free } := State.wound_buffer hb s i
  rw [State.returnLength_toGuard, State.wound_dress (unseen_setLength b n), State.returnLength_data hx hb hv, if_pos]
  · have back : ((s.wound i x).dress id (Pool.setLength b n)).setBuffer b
        { ((s.wound i x).dress id (Pool.setLength b n)).buffer b with length := (before.buffer b).length } =
        ((s.wound i x).dress id (Pool.setLength b n)).dress id (Pool.setLength b (before.buffer b).length) := rfl
    have same : (before.buffer b).length = ((s.wound i x).buffer b).length := by rw [hbuf, hlen]
    rw [back, State.setLength_setLength, same, State.setLength_self]
  · have : ((s.wound i x).dress id (Pool.setLength b n)).buffer b = { (s.wound i x).buffer b with length := n } := by
      unfold State.buffer State.dress Pool.setLength
      simp
    rw [this, hbuf]

/-- What a frame judged valid has passed (R65). -/
theorem judge_valid {kind : ExchangeKind} {expected : Byte → Bool} {got : Reception} {v : Reply}
    (h : judge kind expected got = .valid v) : ∃ frame, got = .whole frame
      ∧ formatPasses (frameKind frame) (frameByte frame 5).toNat = true ∧ replyOf frame = some v.kind
      ∧ allows kind v.kind = true := by
  cases got with
  | badOpening => cases h
  | tooLong => cases h
  | truncated => cases h
  | whole frame =>
    rw [judge_whole] at h
    refine ⟨frame, rfl, ?_⟩
    split at h
    · cases h
    split at h
    · cases h
    next hf =>
    split at h
    · cases h
    cases hk : replyOf frame with
    | none =>
      rw [hk] at h
      cases h
    | some k =>
      rw [hk] at h
      dsimp only at h
      split at h
      · next ha =>
        cases h
        exact ⟨not_not.mp hf, rfl, ha⟩
      · cases h

/-- A reply judged valid, of a RETIRING target: counted, and the exchange wound up (R21, R74, R100). -/
theorem State.replyEnds_valid_retiring {bytes : List Byte} {lost : Bool} {h : Handle} {v : Reply}
    (hx : s.trunk.current = some x) (ht : x.target = some h) (hr : s.record h.slot = some r) (hs : r.state = .retiring)
    (hk : (x.kind = .poll ∨ x.kind = .data) ∨ x.kind = .admitExchange ∧ x.reserved = none ∧ x.outbound = none)
    (hv : judge x.kind s.expectedAddress (receive bytes lost) = .valid v) :
    s.replyEnds bytes lost =
      (State.wound ((s.takePayload (dataPayloadTaken bytes lost)).faultClear.countSequence r v) h.slot x).toGuard := by
  have hexp : (s.takePayload (dataPayloadTaken bytes lost)).expectedAddress = s.expectedAddress := by
    rw [State.takePayload_frame]; rfl
  have steps : s.replyEnds bytes lost = (((s.takePayload (dataPayloadTaken bytes lost)).takeLength v).outcome
      (some v)).returnLength (s.takePayload (dataPayloadTaken bytes lost)) v := by
    rw [State.replyEnds, State.exchangeKind, hx, Option.map_some]
    dsimp only
    rw [hexp, hv]
  have hx1 : (s.takePayload (dataPayloadTaken bytes lost)).trunk.current = some x := by
    rw [State.takePayload_frame]; exact hx
  have hr1 : (s.takePayload (dataPayloadTaken bytes lost)).record h.slot = some r := by
    rw [State.takePayload_frame]; exact hr
  have hseq : x.kind = .admitExchange → r.outOfSequence (some v) = false := fun hka => by
    refine Record.outOfSequence_of_not_data fun n hn => ?_
    have allowed : allows x.kind v.kind = true := by
      obtain ⟨_, -, -, -, ha⟩ := judge_valid hv
      exact ha
    rw [hka, hn] at allowed
    cases allowed
  rw [steps]
  generalize s.takePayload (dataPayloadTaken bytes lost) = t at *
  have wind : ∀ u : State, u.trunk.current = some x → u.record h.slot = some r → u.outcome (some v) =
      (State.wound (u.faultClear.countSequence r v) h.slot x).toGuard := fun u hu hru =>
    State.outcome_retiring hu ht hru hs hk (some v) hseq
  by_cases hd : ∃ b n, x.reserved = some b ∧ v.kind = .data n
  · obtain ⟨b, n, hb, hvk⟩ := hd
    have taken : t.takeLength v = t.dress id (Pool.setLength b n) := State.takeLength_data hx1 hb hvk
    have counted : (t.dress id (Pool.setLength b n)).faultClear.countSequence r v =
        (t.faultClear.countSequence r v).dress id (Pool.setLength b n) := by
      unfold State.countSequence
      split <;> rfl
    have kept : (t.buffer b).length = ((t.faultClear.countSequence r v).buffer b).length := by
      unfold State.countSequence
      split <;> rfl
    rw [taken, wind (t.dress id (Pool.setLength b n)) hx1 hr1, counted]
    exact State.returnLength_wound hx1 hb hvk kept
  · have none' : x.reserved = none ∨ ∀ n, v.kind ≠ .data n := by
      cases hb : x.reserved with
      | none => exact .inl rfl
      | some b => exact .inr fun n hn => hd ⟨b, n, hb, hn⟩
    rw [State.takeLength_none hx1 none', wind t hx1 hr1, State.returnLength_none hx1 none']

/-- Settles O40: a timeout, an invalid reply and a valid one differ in the count and the payload alone. -/
theorem retiringTargetOutcome : Obligations.RetiringTargetOutcome := by
  unfold Obligations.RetiringTargetOutcome
  intro s h r x running hline hx ht hr hs hwf shape n freed settled missed took
  have hk : (x.kind = .poll ∨ x.kind = .data) ∨ x.kind = .admitExchange ∧ x.reserved = none ∧ x.outbound = none :=
    shape.imp And.left id
  have hk3 : x.kind = .poll ∨ x.kind = .data ∨ x.kind = .admitExchange := by tauto
  have hq : r.outq = x.outbound.toList ∨ x.outbound = none ∧ x.reserved = none := by tauto
  have wound : ∀ u : State, u.trunk.current = some x → u.record h.slot = some r →
      (∀ b, (u.buffer b).length = (s.buffer b).length) → (u.wound h.slot x).toGuard = settled u := fun u hux hur hlen => by
    rcases hq with hq | ⟨hob, hres⟩
    · exact congrArg State.toGuard (State.wound_eq hux hur hs hq hlen)
    · refine congrArg State.toGuard ?_
      rw [State.wound, State.freeReserved, State.freeCarried, hres, hob]
      dsimp only
      rw [State.settleRetiring_released hur hs, State.releaseTarget_eq hux]
  have miss : ∀ (u : State) (f : Counters → Counters), u.trunk = s.trunk → u.record h.slot = some r →
      (∀ b, (u.buffer b).length = (s.buffer b).length) → (u.updCounters f).outcome none = settled
        { u with trunk := { s.trunk with
          faultRun := min 255 (s.trunk.faultRun + 1)
          faultDue := s.trunk.faultDue || decide (s.trunk.health.faultThreshold ≤ min 255 (s.trunk.faultRun + 1))
          counters := f n } } := fun u f hu hur hlen => by
    have hux : (u.updCounters f).trunk.current = some x := (congrArg Trunk.current hu).trans hx
    rw [State.outcome_retiring hux ht hur hs hk none fun _ => rfl]
    have counted : (u.updCounters f).faultMiss = { u with trunk := { s.trunk with
        faultRun := min 255 (s.trunk.faultRun + 1)
        faultDue := s.trunk.faultDue || decide (s.trunk.health.faultThreshold ≤ min 255 (s.trunk.faultRun + 1))
        counters := f n } } := by
      rw [show s.trunk = u.trunk from hu.symm]
      unfold n
      rw [← hu]
      rfl
    refine (congrArg (fun t => (State.wound t h.slot x).toGuard) counted).trans (wound _ hx hur hlen)
  refine ⟨fun hrec => ?_, fun bytes hopen => ?_⟩
  · rw [exec_replyTimeout running hline hx hk3 hrec, State.missByTimeout, miss s _ rfl hr fun _ => rfl]
    rfl
  · let t := s.takePayload (dataPayloadTaken bytes false)
    have frame : t = { s with pool := { s.pool with mem := t.pool.mem } } := State.takePayload_frame ..
    have base : ∀ tr : Trunk, ({ t with trunk := tr } : State) =
        { s with pool := { s.pool with mem := t.pool.mem }, trunk := tr } :=
      fun tr => congrArg (fun u : State => { u with trunk := tr }) frame
    have htrunk : t.trunk = s.trunk := by rw [frame]
    have hrec : t.record h.slot = some r := by rw [frame]; exact hr
    have hlen : ∀ b, (t.buffer b).length = (s.buffer b).length := fun b => by rw [frame]; rfl
    refine ⟨t.pool.mem, State.wrote_takePayload hx hwf bytes false, ?_⟩
    rw [exec_replyReceived running hline hx hk3 hopen]
    cases hv : judge x.kind s.expectedAddress (receive bytes false) with
    | invalid e =>
      dsimp only
      rw [State.replyEnds_invalid hx hv]
      refine congrArg _ ((miss t _ htrunk hrec hlen).trans ?_)
      rw [Counters.countReply_eq]
      exact congrArg settled (base _)
    | valid v =>
      dsimp only
      rw [State.replyEnds_valid_retiring hx ht hr hs hk hv]
      refine congrArg _ ?_
      have trunk : (t.faultClear.countSequence r v).trunk = _ := State.countSequence_trunk ..
      have counted : t.faultClear.countSequence r v =
          { t with trunk := (t.faultClear.countSequence r v).trunk } := by
        unfold State.countSequence
        split <;> rfl
      have same : t.faultClear.countSequence r v = { s with
          pool := { s.pool with mem := t.pool.mem }
          trunk := { s.trunk with
            faultRun := 0
            counters :=
              match v.kind with
              | .data _ =>
                if v.ns = r.recvSeq ∨ v.ns = r.recvSeq - 1 then n
                else { n with unexpected := min 65535 (n.unexpected + 1) }
              | .idle | .hold _ | .join _ | .leave => n } } := by
        rw [counted, trunk, base]
        change ({ s with pool := _, trunk := { t.trunk with faultRun := 0, counters := _ } } : State) = _
        rw [show t.faultClear.trunk.counters = n from (congrArg Trunk.counters htrunk : t.trunk.counters = n), htrunk] <;> rfl
      rw [same]
      exact wound _ hx hr fun _ => rfl

end Sys2Proof.Machine
end

section
/-! An abort (R108). -/

namespace Sys2Proof.Machine

variable {s : State} {i : SlotNo} {r : Record} {x : Exchange}

theorem State.setRecord_self (hr : s.record i = some r) : s.setRecord i (some r) = s := by
  rw [State.setRecord_eq_touch i (rfl : r.reasons = r.reasons), State.touch_self hr, State.freeAll_nil]

theorem State.record_post_same (hr : s.record i = some r) (hs : r.state ≠ .retired) (why : Reason) :
    (s.post i why).record i = some (r.addReason why) := by
  rw [State.post_eq_touch hr hs]
  exact State.record_touch_same ..

theorem State.abortExchange_eq {h : Handle} (hx : s.trunk.current = some x) (ht : x.target = some h)
    (hr : s.record h.slot = some r) : s.abortExchange =
      if r.state = .retiring then s.dropReception.wound h.slot x else (s.dropReception.freeReserved x).releaseTarget := by
  obtain ⟨kind, target, ns, ob, rs⟩ := x
  dsimp only at ht
  subst ht
  rw [State.abortExchange, hx]
  dsimp only
  rw [hr]
  rfl

theorem State.wound_mem (s : State) (i : SlotNo) (x : Exchange) : (s.wound i x).pool.mem = s.pool.mem := by
  have pool : (s.wound i x).pool = ((s.freeReserved x).freeCarried i x).pool := (State.settleRetiring_frame ..).2.2.2.2
  have first : (s.freeReserved x).pool.mem = s.pool.mem := by
    unfold State.freeReserved
    cases x.reserved <;> rfl
  rw [pool, ← first]
  rcases (s.freeReserved x).freeCarried_pool i x with e | ⟨c, e⟩ <;> rw [e]
  rfl

theorem State.abortExchange_mem {h : Handle} (hx : s.trunk.current = some x) (ht : x.target = some h)
    (hr : s.record h.slot = some r) : s.abortExchange.pool.mem = s.dropReception.pool.mem := by
  rw [State.abortExchange_eq hx ht hr]
  split
  · exact State.wound_mem ..
  · unfold State.freeReserved
    cases x.reserved <;> rfl

/-- What an abort drops of a reception in progress (R108). -/
theorem State.dropReception_replyIn (hx : s.trunk.current = some x) : s.dropReception.trunk.replyIn =
    if s.trunk.receiving = true ∧ x.reserved ≠ none then s.trunk.replyIn.tail else s.trunk.replyIn := by
  by_cases hr : s.trunk.receiving = true
  · cases hb : x.reserved with
    | some b => rw [State.dropReception_some hx hb hr, if_pos ⟨hr, by simp⟩]
    | none =>
      rw [State.dropReception_none (.inr fun y hy => by rw [hx] at hy; cases hy; exact hb), if_neg (by simp)]
  · rw [State.dropReception_none (.inl (Bool.not_eq_true _ ▸ hr)), if_neg fun h => hr h.1]

/-- Settles O25: the reception dropped, the buffers freed, and a RETIRING target settled. -/
theorem abortReleasesTheExchange : Obligations.AbortReleasesTheExchange := by
  unfold Obligations.AbortReleasesTheExchange
  constructor
  · intro s x h r hx ht hr hwf t freed dropped s1 s2 released
    have mem : t.pool.mem = s.dropReception.pool.mem := State.abortExchange_mem hx ht hr
    have first : s.dropReception = s1 := by
      have frame := s.dropReception_frame
      rw [State.dropReception_replyIn hx, ← mem] at frame
      exact frame
    have second : s.dropReception.freeReserved x = s2 := by
      rw [first, State.freeReserved]
      unfold s2 freed
      cases x.reserved <;> rfl
    have hr2 : s2.record h.slot = some r := by
      rw [← second, first, State.freeReserved]
      cases x.reserved <;> exact hr
    have hx2 : s2.trunk.current = some x := by
      rw [← second, first, State.freeReserved]
      cases x.reserved <;> exact hx
    refine ⟨fun hs => ?_, fun hs hb => ?_, fun hd => ?_, fun b hb hrec => ?_⟩
    · refine (State.abortExchange_eq hx ht hr).trans ((if_neg hs).trans ?_)
      rw [second, State.releaseTarget_eq hx2]
    · intro r1 s3 s4
      have third : s2.freeCarried h.slot x = if x.outbound.isSome then s3.post h.slot .undelivered else s3 := by
        unfold s3 r1 freed
        rw [State.freeCarried]
        cases ho : x.outbound with
        | none => exact (State.setRecord_self hr2).symm
        | some b =>
          dsimp only
          rw [hr2]
          exact if_pos (hb b ho)
      have hr4 : ∃ q, (s2.freeCarried h.slot x).record h.slot = some q ∧ q.state = .retiring
          ∧ q.dismissPending = r.dismissPending := by
        rw [State.freeCarried]
        cases ho : x.outbound with
        | none => exact ⟨r, hr2, hs, rfl⟩
        | some b =>
          rw [hr2]
          dsimp only
          rw [if_pos (hb b ho)]
          let q : Record := { r with
            outq := r.outq.erase b
            headAttempts := if r.outq.erase b = [] then none else r.headAttempts }
          have hq : ((s2.setRecord h.slot (some q)).freeBuffer b).record h.slot = some q :=
            State.record_setRecord_same ..
          exact ⟨_, State.record_post_same hq (by show r.state ≠ _; rw [hs]; decide) .undelivered, hs, rfl⟩
      obtain ⟨q, hq, hqs, hqd⟩ := hr4
      have hx4 : (s2.freeCarried h.slot x).trunk.current = some x := by
        rw [third, apply_ite State.trunk, (State.post_frame ..).2.2.1, ite_self]
        unfold s3 freed
        cases x.outbound <;> exact hx2
      have fourth : (s2.freeCarried h.slot x).releaseTarget = s4 := by
        rw [State.releaseTarget_eq hx4, third]
      refine (State.abortExchange_eq hx ht hr).trans ((if_pos hs).trans ?_)
      rw [State.wound, second, State.settleRetiring_released hq hqs, hqd, fourth]
    · rw [mem]
      refine congrArg (fun u : State => u.pool.mem) (State.dropReception_none ?_)
      by_cases hrec : s.trunk.receiving = true
      · exact .inr fun y hy => by
          rw [hx] at hy
          cases hy
          exact not_not.mp fun hb => hd ⟨hrec, hb⟩
      · exact .inl (Bool.not_eq_true _ ▸ hrec)
    · rw [mem, State.dropReception_some hx hb hrec]
      exact State.wrote_writeBuffer hwf b ((dataPayloadTaken_length _ _).trans (by decide))
  · intro s x hx ht
    obtain ⟨kind, target, ns, ob, rs⟩ := x
    dsimp only at ht
    subst ht
    rw [State.abortExchange, hx]

end Sys2Proof.Machine
end

section
/-! CLOCK_LOSS (R62, R64, R71). -/

namespace Sys2Proof.Machine

variable {s : State} {x : Exchange} {bytes : List Byte}

/-! ### A reception with the clock lost -/

/-- The reply that had arrived ends within its frame (R64). -/
abbrev CutOff (bytes : List Byte) : Prop :=
  bytes.length < 2
    ∨ bytes.take 2 = [0x5A, 0xC3]
      ∧ (bytes.length < 6 ∨ (bytes.getD 5 0).toNat ≤ 120 ∧ bytes.length < 8 + (bytes.getD 5 0).toNat)

theorem opened_iff_take (h : ¬ bytes.length < 2) : Opened bytes ↔ bytes.take 2 = [0x5A, 0xC3] := by
  rw [take_eq_map_heard (by omega)]
  exact (opening_eq_startMark bytes).symm

theorem receive_cutOff (h : CutOff bytes) : receive bytes true = .truncated := by
  rw [receive_lost]
  by_cases h2 : bytes.length < 2
  · rw [if_pos h2]
  obtain ⟨ho, hlen⟩ := h.resolve_left h2
  rw [if_neg h2, if_neg (not_not.mpr ((opened_iff_take h2).mpr ho))]
  by_cases h6 : bytes.length < 6
  · rw [if_pos h6]
  obtain ⟨hn, h8⟩ := hlen.resolve_left h6
  rw [← heard_of_lt (by omega)] at hn h8
  rw [if_neg h6, if_neg (by omega), if_pos h8]

/-- A frame that had arrived whole is received as with the clock running. -/
theorem receive_not_cutOff (h : ¬ CutOff bytes) : receive bytes true = receive bytes false := by
  rw [receive_lost, receive_running]
  have h2 : ¬ bytes.length < 2 := fun h2 => h (.inl h2)
  rw [if_neg h2]
  by_cases ho : Opened bytes
  · have h6 : ¬ bytes.length < 6 := fun h6 => h (.inr ⟨(opened_iff_take h2).mp ho, .inl h6⟩)
    rw [if_neg (not_not.mpr ho), if_neg (not_not.mpr ho), if_neg h6]
    by_cases hn : 120 < (heard bytes 5).toNat
    · rw [if_pos hn, if_pos hn]
    · have h8 : ¬ bytes.length < 8 + (heard bytes 5).toNat := fun h8 => by
        refine h (.inr ⟨(opened_iff_take h2).mp ho, .inr ?_⟩)
        rw [← heard_of_lt (by omega)]
        exact ⟨by omega, h8⟩
      rw [if_neg hn, if_neg hn, if_neg h8, take_eq_map_heard (by omega)]
  · rw [if_pos ho, if_pos ho]

theorem dataPayloadTaken_cutOff (h : CutOff bytes) : dataPayloadTaken bytes true =
    if 6 ≤ bytes.length ∧ (bytes.getD 3 0).toNat / 16 = 9 then (bytes.drop 6).take (bytes.getD 5 0).toNat else [] := by
  rw [dataPayloadTaken_lost]
  by_cases h6 : 6 ≤ bytes.length
  · obtain ⟨ho, hlen⟩ := h.resolve_left (by omega)
    obtain ⟨hn, -⟩ := hlen.resolve_left (by omega)
    have e3 : heard bytes 3 = bytes.getD 3 0 := heard_of_lt (by omega)
    have e5 : heard bytes 5 = bytes.getD 5 0 := heard_of_lt (by omega)
    rw [e3, e5]
    exact if_congr ⟨fun ⟨a, _, _, b⟩ => ⟨a, b⟩, fun ⟨a, b⟩ => ⟨a, (opened_iff_take (by omega)).mpr ho, hn, b⟩⟩ rfl rfl
  · rw [if_neg fun a => h6 a.1, if_neg fun a => h6 a.1]

theorem dataPayloadTaken_congr (h : receive bytes true = receive bytes false) :
    dataPayloadTaken bytes true = dataPayloadTaken bytes false := by
  unfold dataPayloadTaken
  rw [h]

/-! ### A miss does not see the line, the reception and the counters -/

/-- The trunk with the line's state, its reception and its counters changed. -/
def Trunk.recast (line : LineState) (receiving : Bool) (n : Counters) (t : Trunk) : Trunk :=
  { t with line := line, receiving := receiving, counters := n }

theorem unseen_recast (line : LineState) (receiving : Bool) (n : Counters) :
    Unseen (Trunk.recast line receiving n) id where
  current _ := rfl
  health _ := rfl
  released _ := rfl
  freed _ _ := rfl

/-- What a miss leaves, whatever the line's state and its reception were: the counters are those found. -/
theorem State.outcome_none_recast (hx : s.trunk.current = some x) (ht : x.target.isSome = true) (line : LineState)
    (receiving : Bool) (n : Counters) : (s.dress (Trunk.recast line receiving n) id).outcome none =
      { s.outcome none with trunk := { (s.outcome none).trunk with counters := n } } := by
  obtain ⟨h, ht⟩ := Option.isSome_iff_exists.mp ht
  have hx' : (s.dress (Trunk.recast line receiving n) id).trunk.current = some x := hx
  have miss : (s.dress (Trunk.recast line receiving n) id).faultMiss =
      s.faultMiss.dress (Trunk.recast line receiving n) id := rfl
  have guard : ∀ t : State, (t.dress (Trunk.recast line receiving n) id).toGuard =
      { t.toGuard with trunk := { t.toGuard.trunk with counters := n } } := fun _ => rfl
  have u := unseen_recast line receiving n
  rw [State.outcome_eq hx' ht, State.outcome_eq hx ht]
  cases x.kind
  case invite => rfl
  case dismiss => rfl
  case admitExchange =>
    refine Eq.trans ?_ (guard _)
    exact congrArg State.toGuard (State.admitOutcome_none_dress u s.faultMiss h.slot)
  all_goals
    refine Eq.trans ?_ (guard _)
    exact congrArg State.toGuard (State.pollDataOutcome_none_dress u s.faultMiss h.slot x)

/-- A miss counted in a state and in one that differs in line state and reception alone is the same miss. -/
theorem State.outcome_none_counters {t u : State} (hx : s.trunk.current = some x) (ht : x.target.isSome = true)
    (h1 : t = s.dress (Trunk.recast t.trunk.line t.trunk.receiving t.trunk.counters) id)
    (h2 : u = s.dress (Trunk.recast u.trunk.line u.trunk.receiving u.trunk.counters) id) :
    t.outcome none = { u.outcome none with trunk := { (u.outcome none).trunk with counters := t.trunk.counters } } := by
  have e1 := State.outcome_none_recast hx ht t.trunk.line t.trunk.receiving t.trunk.counters
  have e2 := State.outcome_none_recast hx ht u.trunk.line u.trunk.receiving u.trunk.counters
  rw [← h1] at e1
  rw [← h2] at e2
  rw [e1, e2]

/-! ### The event -/

theorem exec_clockLoss (running : s.resetIn = false) (lost : s.trunk.config.clock = .external) (bytes : List Byte) :
    exec (.clockLoss bytes) s = .next
      (match s.trunk.line with
        | .sending => s.cutShort
        | .awaiting =>
          if s.trunk.receiving then
            if s.inPhase .awaiting replyKinds then s.replyEnds bytes true
            else if s.inPhase .awaiting [.invite] then s.joinEnds bytes true
            else s
          else s
        | .idle | .guard | .fault => s.dropStray
        | .off => s) := by
  rw [show exec (.clockLoss bytes) s = execClockLoss bytes s from rfl, execClockLoss, unlessReset_running _ running,
    if_pos lost] <;> cases s.trunk.line <;> rfl

theorem exec_clockLoss_receiving (running : s.resetIn = false) (lost : s.trunk.config.clock = .external)
    (hline : s.trunk.line = .awaiting) (hrec : s.trunk.receiving = true) (hx : s.trunk.current = some x)
    (hk : x.kind = .poll ∨ x.kind = .data ∨ x.kind = .admitExchange) :
    exec (.clockLoss bytes) s = .next (s.replyEnds bytes true) := by
  have phase : s.inPhase .awaiting replyKinds = true := by
    rw [State.inPhase_eq hx, hline]
    rcases hk with hk | hk | hk <;> rw [hk] <;> rfl
  rw [exec_clockLoss running lost, hline, hrec, phase]
  rfl

theorem exec_clockLoss_joining (running : s.resetIn = false) (lost : s.trunk.config.clock = .external)
    (hline : s.trunk.line = .awaiting) (hrec : s.trunk.receiving = true) (hx : s.trunk.current = some x)
    (hk : x.kind = .invite) : exec (.clockLoss bytes) s = .next (s.joinEnds bytes true) := by
  rw [exec_clockLoss running lost, hline, hrec, State.inPhase_eq hx, State.inPhase_eq hx, hline, hk]
  rfl

theorem exec_clockLoss_sending (running : s.resetIn = false) (lost : s.trunk.config.clock = .external)
    (hline : s.trunk.line = .sending) : exec (.clockLoss bytes) s = .next s.cutShort := by
  rw [exec_clockLoss running lost, hline]

/-- Settles O46: nothing with the INTERNAL source; else by line state and kind. -/
theorem clockLossEffect : Obligations.ClockLossEffect := by
  unfold Obligations.ClockLossEffect
  intro s bytes running lost n length truncated
  refine ⟨fun hl => ?_, fun hquiet => ?_, fun hl hline => ?_, fun x hl hx => ⟨fun hline => ⟨fun hk ht => ?_, fun hk => ?_,
    fun hk => ?_⟩, fun hline hrec => ⟨fun hc hk ht hwf => ?_, fun hc hk => ?_, fun hc hk => ?_, fun hc hk => ?_⟩⟩⟩
  · rw [show exec (.clockLoss bytes) s = execClockLoss bytes s from rfl, execClockLoss, unlessReset_running _ running,
      if_neg hl]
  · by_cases hl : lost
    · rw [exec_clockLoss running hl]
      rcases hquiet with h | ⟨h, hr⟩
      · rw [h]
      · rw [h, hr]
        rfl
    · rw [show exec (.clockLoss bytes) s = execClockLoss bytes s from rfl, execClockLoss, unlessReset_running _ running,
        if_neg hl]
  · have stray : exec (.clockLoss bytes) s = .next s.dropStray := by
      rw [exec_clockLoss running hl]
      rcases hline with h | h | h <;> rw [h]
    rw [stray, State.dropStray]
    cases hh : s.trunk.hunt <;> rfl
  · let w : State := { s with trunk := { s.trunk with line := .awaiting, receiving := false } }
    refine ⟨w.missByTimeout, exec_replyTimeout (s := w) running rfl hx hk rfl, ?_⟩
    have cut : s.cutShort = s.missByTimeout := by
      rw [State.cutShort, State.exchangeKind, hx, Option.map_some]
      rcases hk with hk | hk | hk <;> rw [hk]
    have same : s.missByTimeout = _ := State.outcome_none_counters (s := s) (x := x)
      (t := s.updCounters fun c => { c with timeout := countUp c.timeout })
      (u := w.updCounters fun c => { c with timeout := countUp c.timeout }) hx ht rfl rfl
    have own : w.missByTimeout = _ := State.outcome_none_counters (s := s) (x := x)
      (t := w.updCounters fun c => { c with timeout := countUp c.timeout })
      (u := w.updCounters fun c => { c with timeout := countUp c.timeout }) hx ht rfl rfl
    rw [exec_clockLoss_sending running hl hline, cut, same, own]
    rfl
  · rw [exec_clockLoss_sending running hl hline, State.cutShort, State.exchangeKind, hx, Option.map_some, hk]
  · have sent : exec .dismissSent s = .next s.dismissOutcome := by
      rw [show exec .dismissSent s = execDismissSent s from rfl, execDismissSent, unlessReset_running _ running,
        State.inPhase_eq hx, hline, hk]
      rfl
    rw [exec_clockLoss_sending running hl hline, State.cutShort, State.exchangeKind, hx, Option.map_some, hk, sent]
  · let t := s.takePayload (dataPayloadTaken bytes true)
    let w : State := { s with pool := { s.pool with mem := t.pool.mem }, trunk := { s.trunk with receiving := false } }
    have frame : t = { s with pool := { s.pool with mem := t.pool.mem } } := State.takePayload_frame ..
    have wrote := State.wrote_takePayload hx hwf bytes true
    rw [dataPayloadTaken_cutOff hc] at wrote
    refine ⟨t.pool.mem, w.missByTimeout, ?_, exec_replyTimeout (s := w) running hline hx hk rfl, ?_⟩
    · unfold t
      rw [dataPayloadTaken_cutOff hc]
      exact wrote
    · have judged : judge x.kind s.expectedAddress (receive bytes true) = .invalid .format := by
        rw [receive_cutOff hc]
        rfl
      rw [exec_clockLoss_receiving running hl hline hrec hx hk, State.replyEnds_invalid hx judged]
      have hw : w.updCounters (fun c => { c with timeout := countUp c.timeout }) =
          t.dress (Trunk.recast s.trunk.line false { n with timeout := countUp n.timeout }) id := by
        rw [frame]
        rfl
      have hformat : (t.updCounters fun c => c.countReply .format) =
          t.dress (Trunk.recast s.trunk.line s.trunk.receiving { n with format := countUp n.format }) id := by
        rw [frame]
        rfl
      have hxt : t.trunk.current = some x := by rw [frame]; exact hx
      refine congrArg _ ((congrArg (State.outcome · none) hformat).trans ?_)
      rw [State.missByTimeout, hw, State.outcome_none_recast hxt ht, State.outcome_none_recast hxt ht]
      rfl
  · intro s1
    have judged : judge .invite (fun a => decide (a = 0)) (receive bytes true) = .invalid .format := by
      rw [receive_cutOff hc]
      rfl
    rw [exec_clockLoss_joining running hl hline hrec hx hk, State.joinEnds_invalid judged]
    refine congrArg _ (if_congr Iff.rfl ?_ rfl)
    refine congrArg (fun cs => State.toGuard { s1 with adm := { s.adm with candidates := cs } }) ?_
    refine congrArg (fun f => s.adm.candidates.filterMap f) (funext fun c => ?_)
    unfold Candidate.lapseStep
    simp
  · have same := receive_not_cutOff hc
    have hopen : s.windowOpen = true := by rw [State.windowOpen, hrec]; rfl
    rw [exec_clockLoss_receiving running hl hline hrec hx hk, exec_replyReceived running hline hx hk hopen,
      State.replyEnds, State.replyEnds, dataPayloadTaken_congr same, same]
  · have same := receive_not_cutOff hc
    have hopen : s.windowOpen = true := by rw [State.windowOpen, hrec]; rfl
    rw [exec_clockLoss_joining running hl hline hrec hx hk, exec_joinFrame running hline hx hk hopen,
      State.joinEnds, State.joinEnds, same]

end Sys2Proof.Machine
end

section
/-! What the settings and the names of the records depend on, and the operations that leave it alone. -/

namespace Sys2Proof.Machine

/-! ### The parts read -/

/-- What names a slot: its generation, and the identity and address of its record. -/
def State.name (s : State) (i : SlotNo) : Byte × Option (List Byte × Byte) :=
  ((s.slot i).gen, (s.record i).map fun r => (r.identity, r.address))

/-- The memory, the settings and the counts outside the records, and the names of the slots. -/
structure Essence where
  names : SlotNo → Byte × Option (List Byte × Byte)
  freeSlots : List SlotNo
  mem : List Host.Cell
  adm : Admission
  health : Health
  faultRun : Nat
  config : LineConfig
  counters : Counters
  hunt : Hunt
  slowDivisor : Nat
  countdown : Nat
  reserveFloor : Nat
  enables : BitVec 6

/-- The essence of a state. -/
def State.essence (s : State) : Essence where
  names := s.name
  freeSlots := s.registry.freeSlots
  mem := s.pool.mem
  adm := s.adm
  health := s.trunk.health
  faultRun := s.trunk.faultRun
  config := s.trunk.config
  counters := s.trunk.counters
  hunt := s.trunk.hunt
  slowDivisor := s.poll.slowDivisor
  countdown := s.poll.countdown
  reserveFloor := s.pool.reserveFloor
  enables := s.port1.enables

section
variable (s : State) (i : SlotNo) (b : BufNo) (ch : Channel) (x : Exchange)

/-- A record replaced by one of the same identity and address. -/
theorem State.essence_setRecord {s : State} {i : SlotNo} {r q : Record} (hr : s.record i = some r)
    (h : (q.identity, q.address) = (r.identity, r.address)) : (s.setRecord i (some q)).essence = s.essence := by
  have names : (s.setRecord i (some q)).name = s.name := funext fun j => by
    unfold State.name
    rw [State.gen_setRecord, State.record_setRecord]
    split
    · next e => subst e; rw [hr, Option.map_some, Option.map_some, h]
    · rfl
  exact congrArg (fun n => { s.essence with names := n }) names

theorem State.essence_updRecord (f : Record → Record)
    (h : ∀ r, ((f r).identity, (f r).address) = (r.identity, r.address)) : (s.updRecord i f).essence = s.essence := by
  unfold State.updRecord
  cases hr : s.record i with
  | none => rfl
  | some r => exact State.essence_setRecord hr (h r)

theorem State.essence_setPort (p : Port) (h : p.enables = (s.port ch).enables) :
    (s.setPort ch p).essence = s.essence := by
  cases ch with
  | ch0 => rfl
  | ch1 => exact congrArg (fun e => { s.essence with enables := e }) h

theorem State.essence_complete (code : ResultCode) (ws : List Word) : (s.complete ch code ws).essence = s.essence :=
  State.essence_setPort s ch _ rfl

theorem State.essence_fail (code : ResultCode) : (s.fail ch code).essence = s.essence :=
  State.essence_complete s ch code []

theorem State.essence_joinChangeList : (s.joinChangeList ch i).essence = s.essence :=
  State.essence_setPort s ch _ rfl

theorem State.essence_post (why : Reason) : (s.post i why).essence = s.essence := by
  unfold State.post
  cases hr : s.record i with
  | none => rfl
  | some r =>
    have set : (s.setRecord i (some (r.addReason why))).essence = s.essence := State.essence_setRecord hr rfl
    dsimp only
    split
    · rfl
    · split
      · exact (State.essence_joinChangeList ..).trans set
      · exact set

theorem State.essence_freeUndelivered (bs : List BufNo) : (s.freeUndelivered i bs).essence = s.essence := by
  induction bs generalizing s with
  | nil => rfl
  | cons b bs ih => exact (ih _).trans (State.essence_post (s.freeBuffer b) i .undelivered)

theorem State.essence_removeRing : (s.removeRing i).essence = s.essence := by
  unfold State.removeRing
  split <;> rfl

theorem State.essence_enterRetired : (s.enterRetired i).essence = s.essence := by
  unfold State.enterRetired
  cases s.record i with
  | none => rfl
  | some r =>
    refine (State.essence_updRecord _ _ _ ?_).trans ((State.essence_post ..).trans (State.essence_updRecord _ _ _ ?_))
    · exact fun _ => rfl
    · exact fun _ => rfl

theorem State.essence_settleRetiring : (s.settleRetiring i).essence = s.essence := by
  unfold State.settleRetiring
  cases s.record i with
  | none => rfl
  | some r =>
    dsimp only
    split
    · exact State.essence_enterRetired s i
    · rfl

theorem State.essence_enterRetirement (cause : RetireCause) (dismiss : Bool) :
    (s.enterRetirement i cause dismiss).essence = s.essence := by
  unfold State.enterRetirement
  cases hr : s.record i with
  | none => rfl
  | some r =>
    dsimp only
    have first : ∀ kept, (s.setRecord i (some (r.retireFields cause kept))).essence = s.essence := fun kept =>
      State.essence_setRecord hr rfl
    have second : ∀ t : State, (if r.state.isMember = true then t.removeRing i else t).essence = t.essence := fun t => by
      split
      · exact State.essence_removeRing t i
      · rfl
    have third : ∀ t : State, (if r.state = .admitting then t.removeAdmit i else t).essence = t.essence := fun t => by
      split <;> rfl
    have fourth : ∀ kept gone, ((if r.state = .admitting then
        (if r.state.isMember = true then (s.setRecord i (some (r.retireFields cause kept))).removeRing i
          else s.setRecord i (some (r.retireFields cause kept))).removeAdmit i
        else if r.state.isMember = true then (s.setRecord i (some (r.retireFields cause kept))).removeRing i
          else s.setRecord i (some (r.retireFields cause kept))).freeUndelivered i gone).essence = s.essence :=
      fun kept gone => (State.essence_freeUndelivered ..).trans ((third _).trans ((second _).trans (first kept)))
    have retiring : ∀ t : State, (t.updRecord i fun r => { r with state := .retiring, dismissPending := some dismiss }).essence
        = t.essence := fun t => State.essence_updRecord _ _ _ fun _ => rfl
    split
    · split
      · exact (retiring _).trans (fourth _ _)
      · exact (retiring _).trans (fourth _ _)
    · exact (State.essence_enterRetired ..).trans (fourth _ _)

/-! ### Outcomes -/

theorem State.essence_freeReserved : (s.freeReserved x).essence = s.essence := by
  unfold State.freeReserved
  split <;> rfl

theorem State.essence_freeCarried : (s.freeCarried i x).essence = s.essence := by
  unfold State.freeCarried
  cases x.outbound with
  | none => rfl
  | some b =>
    cases hr : s.record i with
    | none => rfl
    | some r =>
      dsimp only
      split
      · exact (State.essence_post ..).trans (State.essence_setRecord hr rfl)
      · rfl

theorem State.essence_finishMessage (why : Reason) : (s.finishMessage i b why).essence = s.essence := by
  unfold State.finishMessage
  cases hr : s.record i with
  | none => rfl
  | some r =>
    dsimp only
    split
    · exact (State.essence_post ..).trans (State.essence_setRecord hr rfl)
    · rfl

theorem State.essence_countAttempt : (s.countAttempt i b).essence = s.essence := by
  unfold State.countAttempt
  cases hr : s.record i with
  | none => rfl
  | some r =>
    dsimp only
    split
    · split
      · exact (State.essence_finishMessage ..).trans (State.essence_setRecord hr rfl)
      · exact State.essence_setRecord hr rfl
    · rfl

theorem State.essence_judgeAck (v : Reply) : (s.judgeAck i x v).essence = s.essence := by
  unfold State.judgeAck
  split
  · split
    · exact State.essence_finishMessage ..
    · split
      · rfl
      · exact State.essence_countAttempt ..
      · exact State.essence_countAttempt ..
      · exact State.essence_countAttempt ..
      · exact State.essence_countAttempt ..
  · rfl

theorem State.essence_deliver {s : State} {i : SlotNo} {r : Record} (hr : s.record i = some r) (b : BufNo) (n : Nat) :
    (s.deliver i r b n).essence = s.essence := by
  have set : ∀ y, ((s.setBuffer b y).setRecord i (some { r with recvSeq := r.recvSeq + 1 })).essence = s.essence :=
    fun y => State.essence_setRecord (s := s.setBuffer b y) hr rfl
  unfold State.deliver
  refine (State.essence_setPort _ _ _ ?_).trans (set _)
  rfl

theorem State.essence_applyHold (n : Nat) : (s.applyHold i n).essence = s.essence := by
  unfold State.applyHold
  cases hr : s.record i with
  | none => rfl
  | some r =>
    have set : ∀ h, (s.setRecord i (some { r with hold := h })).essence = s.essence := fun h =>
      State.essence_setRecord hr rfl
    dsimp only
    split
    · split
      · exact (State.essence_post ..).trans (set _)
      · rfl
    · split
      · exact set _
      · exact (State.essence_post ..).trans (set _)

theorem State.essence_recover : (s.recover i).essence = s.essence :=
  (State.essence_post ..).trans (State.essence_updRecord _ _ _ fun _ => rfl)

theorem State.essence_countMiss : (s.countMiss i).essence = s.essence := by
  unfold State.countMiss
  cases hr : s.record i with
  | none => rfl
  | some r =>
    dsimp only
    cases r.state
    case active =>
      dsimp only
      split
      · exact (State.essence_post ..).trans (State.essence_setRecord hr rfl)
      · exact State.essence_setRecord hr rfl
    case silent => exact State.essence_setRecord hr rfl
    case suspended => exact State.essence_setRecord hr rfl
    all_goals rfl

theorem State.essence_missed (r : Record) : (s.missed i r x).essence = s.essence := by
  have attempt : (s.attempted i x).essence = s.essence := by
    unfold State.attempted
    split
    · exact State.essence_countAttempt ..
    · rfl
  have freed : (((s.attempted i x).countMiss i).freeReserved x).releaseTarget.essence = s.essence :=
    (State.essence_freeReserved ..).trans ((State.essence_countMiss ..).trans attempt)
  have steps : s.missed i r x =
      let t := (s.attempted i x).countMiss i
      if t.isLost r i then (t.freeReserved x).releaseTarget.enterRetirement i .lost false
      else (t.freeReserved x).releaseTarget := rfl
  rw [steps]
  dsimp only
  split
  · exact (State.essence_enterRetirement ..).trans freed
  · exact freed

theorem State.essence_confirm : (s.confirm i).essence = s.essence :=
  (State.essence_post (((s.updRecord i _).removeAdmit i).appendRing i) i .admitted).trans
    (State.essence_updRecord s i _ fun _ => rfl)

theorem State.essence_admitFailed {s : State} {i : SlotNo} {r : Record} (hr : s.record i = some r) :
    (s.admitFailed i r).essence = s.essence := by
  have set : ∀ a, (s.setRecord i (some { r with admitAttempts := a })).essence = s.essence := fun a =>
    State.essence_setRecord hr rfl
  unfold State.admitFailed
  dsimp only
  split
  · exact set _
  · exact (State.essence_enterRetirement ..).trans (set _)

theorem State.essence_admitOutcome (reply : Option Reply) : (s.admitOutcome i reply).essence = s.essence := by
  unfold State.admitOutcome
  cases hr : s.record i with
  | none => rfl
  | some r =>
    dsimp only
    cases r.state
    case admitting =>
      cases reply with
      | none => exact State.essence_admitFailed hr
      | some v => exact State.essence_confirm s i
    case retiring => exact State.essence_settleRetiring s.releaseTarget i
    all_goals rfl

theorem State.essence_dismissOutcome : s.dismissOutcome.essence = s.essence := by
  unfold State.dismissOutcome
  split
  · next h _ _ _ _ =>
    have upd : ((s.removeDismiss h.slot).updRecord h.slot fun r =>
        if r.state = .retiring then { r with dismissPending := some false } else r).essence = s.essence :=
      State.essence_updRecord (s.removeDismiss h.slot) _ _ fun r => by
        by_cases hs : r.state = .retiring
        · rw [if_pos hs]
        · rw [if_neg hs]
    exact (State.essence_settleRetiring (State.releaseTarget _) h.slot).trans upd
  · rfl

theorem State.essence_endDrain (ended : Nat) : (s.endDrain ended).essence = s.essence := by
  unfold State.endDrain
  split
  · rfl
  · exact State.essence_complete ..

/-! ### Commands -/

theorem State.essence_writeCommand (code opts : Byte) : (s.writeCommand ch code opts).essence = s.essence := by
  unfold State.writeCommand
  dsimp only
  split <;> exact State.essence_setPort _ _ _ rfl

theorem State.essence_issued (code opts : Byte) : (s.issued ch code opts).essence = s.essence := by
  unfold State.issued
  split
  · rfl
  · exact State.essence_writeCommand ..

theorem State.essence_taken : (s.taken ch).essence = s.essence :=
  State.essence_setPort s ch _ rfl

theorem State.essence_transferRecord {s : State} {i : SlotNo} {r : Record} (hr : s.record i = some r) (owner : Channel) :
    (s.transferRecord i r owner).essence = s.essence := by
  have hr1 : ∀ p, (s.setPort r.owner p).record i = some r := fun p => (State.setPort_record ..).trans hr
  unfold State.transferRecord
  refine (State.essence_joinChangeList ..).trans ((State.essence_setRecord (hr1 _) ?_).trans (State.essence_setPort _ _ _ ?_))
  · rfl
  · rfl

theorem State.essence_endHold : (s.endHold i).essence = s.essence :=
  (State.essence_post ..).trans (State.essence_updRecord _ _ _ fun _ => rfl)

theorem State.essence_tick : s.tick.essence = s.essence := by
  by_cases held : s.resetIn = true
  · rw [State.tick, if_pos held]
  have names : s.tick.name = s.name := funext fun i => by
    unfold State.name
    rw [State.gen_tick, State.record_tick (Bool.not_eq_true _ ▸ held), Option.map_map]
    rfl
  have rest : s.tick.essence = { s.essence with names := s.tick.name } := by
    unfold State.tick
    split <;> rfl
  rw [rest, names]
  rfl

end

end Sys2Proof.Machine
end

section
/-! Operations that keep the memory and the settings in order and the records' names, or give a free slot a new one. -/

namespace Sys2Proof.Machine

/-! ### The relations -/

/-- The memory stays in canonical form, and the settings and counts in their ranges. -/
structure State.Tame (s t : State) : Prop where
  mem : Memory.wf s.pool.mem = true → Memory.wf t.pool.mem = true
  settings : s.SettingsOk → t.SettingsOk

/-- A slot has its name of before, or was free and has a new record with the next generation. -/
def State.Names (s t : State) (i : SlotNo) : Prop :=
  t.name i = s.name i
    ∨ i ∈ s.registry.freeSlots ∧ i ∉ t.registry.freeSlots ∧ (t.slot i).gen = (s.slot i).gen + 1
      ∧ (t.record i).isSome = true

/-- Slots leave the Free Slot List from its head, each with a new record; every other slot keeps its name (R3). -/
structure State.Named (s t : State) : Prop where
  free : t.registry.freeSlots <:+ s.registry.freeSlots
  names : s.registry.freeSlots.Nodup → ∀ i, s.Names t i

structure State.Regular (s t : State) : Prop where
  tame : s.Tame t
  named : s.Named t

theorem State.name_gen {s t : State} {i : SlotNo} (h : t.name i = s.name i) : (t.slot i).gen = (s.slot i).gen :=
  congrArg Prod.fst h

theorem State.name_isSome {s t : State} {i : SlotNo} (h : t.name i = s.name i) :
    (t.record i).isSome = (s.record i).isSome := by
  have := congrArg (fun n => n.2.isSome) h
  simpa [State.name] using this

theorem State.Tame.trans {s t u : State} (a : s.Tame t) (b : t.Tame u) : s.Tame u :=
  ⟨fun h => b.mem (a.mem h), fun h => b.settings (a.settings h)⟩

theorem State.Named.trans {s t u : State} (a : s.Named t) (b : t.Named u) : s.Named u where
  free := b.free.trans a.free
  names nodup i := by
    rcases b.names (nodup.sublist a.free.sublist) i with hb | ⟨bin, bout, bgen, bsome⟩
    · rcases a.names nodup i with ha | ⟨ain, aout, agen, asome⟩
      · exact .inl (hb.trans ha)
      · exact .inr ⟨ain, fun h => aout (b.free.subset h), (State.name_gen hb).trans agen,
          (State.name_isSome hb).trans asome⟩
    · rcases a.names nodup i with ha | ⟨-, aout, -, -⟩
      · exact .inr ⟨a.free.subset bin, bout, bgen.trans (by rw [State.name_gen ha]), bsome⟩
      · exact absurd bin aout

theorem State.Regular.trans {s t u : State} (a : s.Regular t) (b : t.Regular u) : s.Regular u :=
  ⟨a.tame.trans b.tame, a.named.trans b.named⟩

theorem State.Named.of_names {s t : State} (names : t.name = s.name)
    (free : t.registry.freeSlots = s.registry.freeSlots) : s.Named t where
  free := free ▸ List.suffix_refl _
  names _ i := .inl (congrFun names i)

theorem State.Named.of_registry {s t : State} (h : t.registry = s.registry) : s.Named t :=
  .of_names (funext fun i => by unfold State.name State.record State.slot; rw [h]) (by rw [h])

/-- What the settings are a function of. -/
theorem State.SettingsOk.of_essence {s t : State} (h : t.essence = s.essence) (ok : s.SettingsOk) : t.SettingsOk := by
  have adm : t.adm = s.adm := congrArg Essence.adm h
  have health : t.trunk.health = s.trunk.health := congrArg Essence.health h
  have run : t.trunk.faultRun = s.trunk.faultRun := congrArg Essence.faultRun h
  have config : t.trunk.config = s.trunk.config := congrArg Essence.config h
  have counters : t.trunk.counters = s.trunk.counters := congrArg Essence.counters h
  have hunt : t.trunk.hunt = s.trunk.hunt := congrArg Essence.hunt h
  have divisor : t.poll.slowDivisor = s.poll.slowDivisor := congrArg Essence.slowDivisor h
  have countdown : t.poll.countdown = s.poll.countdown := congrArg Essence.countdown h
  have floor : t.pool.reserveFloor = s.pool.reserveFloor := congrArg Essence.reserveFloor h
  have enables : t.port1.enables = s.port1.enables := congrArg Essence.enables h
  unfold State.SettingsOk
  rw [adm, health, run, config, counters, hunt, divisor, countdown, floor, enables]
  exact ok

theorem State.Regular.of_essence {s t : State} (h : t.essence = s.essence) : s.Regular t where
  tame := ⟨fun wf => by rw [show t.pool.mem = s.pool.mem from congrArg Essence.mem h]; exact wf, .of_essence h⟩
  named := .of_names (congrArg Essence.names h) (congrArg Essence.freeSlots h)

theorem State.Regular.refl (s : State) : s.Regular s := .of_essence rfl

/-- A regular change, and then one that the settings and names do not see. -/
theorem State.Regular.then {s t u : State} (a : s.Regular t) (h : u.essence = t.essence) : s.Regular u :=
  a.trans (.of_essence h)

/-- A change of the settings and counts alone. -/
theorem State.Regular.of_settings {s t : State} (registry : t.registry = s.registry) (mem : t.pool.mem = s.pool.mem)
    (settings : s.SettingsOk → t.SettingsOk) : s.Regular t :=
  ⟨⟨fun wf => mem ▸ wf, settings⟩, .of_registry registry⟩

theorem State.Regular.ite {s t u : State} {p : Prop} [Decidable p] (a : p → s.Regular t) (b : ¬ p → s.Regular u) :
    s.Regular (if p then t else u) := by
  split
  · next h => exact a h
  · next h => exact b h

/-! ### Counts -/

/-- The counters in their ranges (R74). -/
def Counters.Ok (c : Counters) : Prop :=
  within 0 c.check 65535 = true ∧ within 0 c.format 65535 = true ∧ within 0 c.stray 65535 = true
    ∧ within 0 c.unexpected 65535 = true ∧ within 0 c.timeout 65535 = true ∧ within 0 c.joinCollision 65535 = true
    ∧ within 0 c.refusedJoin 65535 = true ∧ within 0 c.candidateOverflow 65535 = true

theorem within_iff {low n high : Nat} : within low n high = true ↔ low ≤ n ∧ n ≤ high := decide_eq_true_iff

theorem within_satInc (limit n : Nat) : within 0 (satInc limit n) limit = true :=
  within_iff.mpr ⟨Nat.zero_le _, Nat.min_le_left ..⟩

theorem within_countUp (n : Nat) : within 0 (countUp n) 65535 = true := within_satInc 65535 n

theorem Counters.ok_countReply {c : Counters} (h : c.Ok) (e : FrameError) : (c.countReply e).Ok := by
  obtain ⟨h1, h2, h3, h4, h5, h6, h7, h8⟩ := h
  cases e
  case check => exact ⟨within_countUp _, h2, h3, h4, h5, h6, h7, h8⟩
  case stray => exact ⟨h1, h2, within_countUp _, h4, h5, h6, h7, h8⟩
  case unexpected => exact ⟨h1, h2, h3, within_countUp _, h5, h6, h7, h8⟩
  all_goals exact ⟨h1, within_countUp _, h3, h4, h5, h6, h7, h8⟩

theorem Counters.ok_countJoin {c : Counters} (h : c.Ok) (e : FrameError) : (c.countJoin e).Ok := by
  obtain ⟨h1, h2, h3, h4, h5, h6, h7, h8⟩ := h
  cases e
  case format => exact ⟨h1, within_countUp _, h3, h4, h5, h6, h7, h8⟩
  case stray => exact ⟨h1, h2, within_countUp _, h4, h5, h6, h7, h8⟩
  case unexpected => exact ⟨h1, h2, h3, within_countUp _, h5, h6, h7, h8⟩
  all_goals exact ⟨h1, h2, h3, h4, h5, within_countUp _, h7, h8⟩

theorem Counters.ok_timeout {c : Counters} (h : c.Ok) : Counters.Ok { c with timeout := countUp c.timeout } := by
  obtain ⟨h1, h2, h3, h4, -, h6, h7, h8⟩ := h
  exact ⟨h1, h2, h3, h4, within_countUp _, h6, h7, h8⟩

theorem Counters.ok_unexpected {c : Counters} (h : c.Ok) : Counters.Ok { c with unexpected := countUp c.unexpected } := by
  obtain ⟨h1, h2, h3, -, h5, h6, h7, h8⟩ := h
  exact ⟨h1, h2, h3, within_countUp _, h5, h6, h7, h8⟩

theorem Counters.ok_stray {c : Counters} (h : c.Ok) : Counters.Ok { c with stray := countUp c.stray } := by
  obtain ⟨h1, h2, -, h4, h5, h6, h7, h8⟩ := h
  exact ⟨h1, h2, within_countUp _, h4, h5, h6, h7, h8⟩

theorem Counters.ok_refusedJoin {c : Counters} (h : c.Ok) :
    Counters.Ok { c with refusedJoin := countUp c.refusedJoin } := by
  obtain ⟨h1, h2, h3, h4, h5, h6, -, h8⟩ := h
  exact ⟨h1, h2, h3, h4, h5, h6, within_countUp _, h8⟩

theorem Counters.ok_candidateOverflow {c : Counters} (h : c.Ok) :
    Counters.Ok { c with candidateOverflow := countUp c.candidateOverflow } := by
  obtain ⟨h1, h2, h3, h4, h5, h6, h7, -⟩ := h
  exact ⟨h1, h2, h3, h4, h5, h6, h7, within_countUp _⟩

theorem Counters.ok_clearPage {c : Counters} (h : c.Ok) (page : Nat) : (c.clearPage page).Ok := by
  obtain ⟨h1, h2, h3, h4, h5, h6, h7, h8⟩ := h
  unfold Counters.clearPage
  split
  · exact ⟨rfl, rfl, rfl, rfl, h5, h6, h7, h8⟩
  · exact ⟨h1, h2, h3, h4, rfl, rfl, rfl, rfl⟩

section
variable (s : State) (i : SlotNo) (b : BufNo) (ch : Channel) (x : Exchange)

theorem State.regular_updCounters {f : Counters → Counters} (h : ∀ c : Counters, c.Ok → (f c).Ok) :
    s.Regular (s.updCounters f) :=
  .of_settings rfl rfl fun ⟨health, config, counters, rest⟩ => ⟨health, config, h s.trunk.counters counters, rest⟩

/-! ### The trunk -/

/-- A change of the trunk that leaves its settings and its counts alone, but for the hunt. -/
theorem State.regular_updTrunk {f : Trunk → Trunk} (health : (f s.trunk).health = s.trunk.health)
    (run : (f s.trunk).faultRun = s.trunk.faultRun) (config : (f s.trunk).config = s.trunk.config)
    (counters : (f s.trunk).counters = s.trunk.counters)
    (hunt : s.trunk.hunt.ok = true → (f s.trunk).hunt.ok = true) : s.Regular (s.updTrunk f) :=
  .of_settings rfl rfl fun ⟨hhealth, hconfig, hcounters, hadm, hfilters, hcandidates, hfloor, henables, hhunt⟩ => by
    unfold State.SettingsOk
    rw [State.trunk_updTrunk, health, run, config, counters]
    exact ⟨hhealth, hconfig, hcounters, hadm, hfilters, hcandidates, hfloor, henables, hunt hhunt⟩

theorem State.regular_faultRun {f : Trunk → Trunk} (health : (f s.trunk).health = s.trunk.health)
    (run : within 0 (f s.trunk).faultRun 255 = true) (config : (f s.trunk).config = s.trunk.config)
    (counters : (f s.trunk).counters = s.trunk.counters) (hunt : (f s.trunk).hunt = s.trunk.hunt) :
    s.Regular (s.updTrunk f) :=
  .of_settings rfl rfl fun ⟨⟨h1, h2, h3, h4, h5, _⟩, rest⟩ => by
    unfold State.SettingsOk
    rw [State.trunk_updTrunk, health, config, counters, hunt]
    exact ⟨⟨h1, h2, h3, h4, h5, run⟩, rest⟩

theorem State.regular_faultMiss : s.Regular s.faultMiss :=
  State.regular_faultRun s rfl (within_satInc ..) rfl rfl rfl

theorem State.regular_faultClear : s.Regular s.faultClear := State.regular_faultRun s rfl rfl rfl rfl rfl

theorem State.regular_beginExchange (frame : List Byte) : s.Regular (s.beginExchange x frame) :=
  State.regular_updTrunk s rfl rfl rfl rfl fun _ => rfl

theorem State.regular_toGuard : s.Regular s.toGuard := .of_essence rfl

theorem State.regular_toOff : s.Regular s.toOff := State.regular_updTrunk s rfl rfl rfl rfl fun _ => rfl

theorem State.regular_dropStray : s.Regular s.dropStray := by
  unfold State.dropStray
  split
  · exact State.regular_updTrunk s rfl rfl rfl rfl fun _ => rfl
  · exact .refl s

theorem State.regular_hearBits (bits : List Bool) : s.Regular (s.hearBits bits) := by
  induction bits generalizing s with
  | nil => exact .refl s
  | cons b bits ih =>
    have moved : s.Regular (s.updTrunk fun t => { t with hunt := (s.trunk.hunt.hear b).1 }) :=
      State.regular_updTrunk s rfl rfl rfl rfl (Hunt.hear_ok s.trunk.hunt b)
    unfold State.hearBits
    refine State.Regular.trans ?_ (ih _)
    split
    · exact moved.trans (State.regular_updCounters _ fun c => c.ok_stray)
    · exact moved

theorem State.regular_passStray : s.Regular s.passStray := by
  unfold State.passStray
  split
  · exact .refl s
  · refine State.Regular.trans ?_ (State.regular_updCounters _ fun c => c.ok_stray)
    exact State.regular_updTrunk s rfl rfl rfl rfl fun _ => rfl

/-! ### The memory -/

theorem State.regular_writeBuffer (bytes : List Byte) : s.Regular (s.writeBuffer b bytes) where
  tame := ⟨fun wf => State.writeBuffer_wf wf b bytes, id⟩
  named := .of_registry rfl

theorem State.regular_takePayload (payload : List Byte) : s.Regular (s.takePayload payload) := by
  unfold State.takePayload
  split
  · exact State.regular_writeBuffer ..
  · exact .refl s

theorem State.regular_dropReception : s.Regular s.dropReception := by
  rcases s.dropReception_eq with e | ⟨x, b, -, -, -, e⟩ <;> rw [e]
  · exact .refl s
  · exact (State.regular_writeBuffer s b _).then rfl

theorem State.regular_stageOut (item : List Byte) : s.Regular (s.stageOut b item) :=
  (State.regular_writeBuffer s b item).then rfl

theorem State.regular_writeWindow (v : Word) : s.Regular (s.writeWindow ch v) := by
  unfold State.writeWindow
  split
  · obtain ⟨h1, h2⟩ := State.windowAddrs_lt s ch
    let mem := Memory.write (Memory.write s.pool.mem (s.windowAddrs ch).1 (loByte v)) (s.windowAddrs ch).2 (hiByte v)
    have written : s.Regular { s with pool := { s.pool with mem := mem } } :=
      ⟨⟨fun wf => Memory.write_wf (Memory.write_wf wf h1 _) h2 _, id⟩, .of_registry rfl⟩
    refine written.then ?_
    exact State.essence_setPort _ _ _ rfl
  · refine .of_essence ?_
    exact State.essence_setPort _ _ _ rfl

theorem State.essence_takeLength (v : Reply) : (s.takeLength v).essence = s.essence := by
  rcases s.takeLength_eq v with e | ⟨y, b, n, -, -, -, e⟩ <;> rw [e]
  rfl

theorem State.essence_returnLength (before : State) (v : Reply) : (s.returnLength before v).essence = s.essence := by
  rcases s.returnLength_eq before v with e | ⟨y, b, -, -, -, e⟩ <;> rw [e]
  rfl

/-! ### The Ring and the Admission Unit -/

theorem PollRing.stepCountdown_ok {p : PollRing} {interval : Nat}
    (h : if interval = 0 then p.countdown = 0 else within 1 p.countdown interval = true) :
    if interval = 0 then (p.stepCountdown interval).countdown = 0
    else within 1 (p.stepCountdown interval).countdown interval = true := by
  unfold PollRing.stepCountdown
  by_cases h0 : interval = 0
  · rw [if_pos h0, if_pos h0]
  · rw [if_neg h0] at h
    rw [if_neg h0, if_neg h0]
    obtain ⟨h1, h2⟩ := within_iff.mp h
    split
    · exact within_iff.mpr ⟨Nat.one_le_iff_ne_zero.mpr h0, le_refl _⟩
    · exact within_iff.mpr ⟨by dsimp only; omega, by dsimp only; omega⟩

theorem PollRing.stepCountdown_slowDivisor (p : PollRing) (interval : Nat) :
    (p.stepCountdown interval).slowDivisor = p.slowDivisor := by
  unfold PollRing.stepCountdown
  split
  · rfl
  · split <;> rfl

theorem PollRing.endPass_slowDivisor (p : PollRing) (interval : Nat) : (p.endPass interval).slowDivisor = p.slowDivisor :=
  PollRing.stepCountdown_slowDivisor ..

theorem State.regular_endPass : s.Regular s.endPass :=
  .of_settings rfl rfl fun ⟨health, config, counters, ⟨h1, h2, h3, h4, h5, h6, h7⟩, rest⟩ => by
    unfold State.SettingsOk
    rw [show s.endPass.poll.slowDivisor = s.poll.slowDivisor from PollRing.endPass_slowDivisor ..]
    exact ⟨health, config, counters, ⟨h1, h2, h3, h4, h5, h6, PollRing.stepCountdown_ok h7⟩, rest⟩

theorem State.essence_visit : (s.visit i).1.essence = s.essence := by
  unfold State.visit
  cases hr : s.record i with
  | none => rfl
  | some r => exact State.essence_setRecord hr rfl

theorem State.regular_visitFrom (l : List SlotNo) : s.Regular (s.visitFrom l).1 := by
  induction l generalizing s with
  | nil => exact State.regular_endPass s
  | cons i l ih =>
    have visited : s.Regular (s.visit i).1 := .of_essence (State.essence_visit s i)
    unfold State.visitFrom
    dsimp only
    split
    · dsimp only
      split
      · exact visited.trans (State.regular_endPass _)
      · exact visited
    · exact visited.trans (ih _)

theorem State.regular_requestMember : s.Regular s.requestMember.1 := by
  unfold State.requestMember
  split
  · exact .refl s
  · exact State.regular_visitFrom s _

theorem State.regular_beginInvite : s.Regular s.beginInvite := by
  refine State.Regular.trans (State.regular_beginExchange s
    { kind := .invite, target := none, sentNS := none, outbound := none, reserved := none }
    (inviteFrame s.adm.width s.adm.nextPartition)) (.of_settings rfl rfl ?_)
  intro ⟨health, config, counters, ⟨h1, h2, h3, h4, h5, _, h7⟩, rest⟩
  exact ⟨health, config, counters, ⟨h1, h2, h3, h4, h5, Nat.mod_lt _ (Nat.two_pow_pos _), h7⟩, rest⟩

theorem State.essence_reserve : s.reserve.1.essence = s.essence := by
  unfold State.reserve
  split <;> rfl

theorem State.regular_beginPollData (r : Record) : s.Regular (s.beginPollData i r) := by
  have reserved : s.Regular s.reserve.1 := .of_essence (State.essence_reserve s)
  unfold State.beginPollData
  dsimp only
  split <;> exact reserved.trans (State.regular_beginExchange ..)

theorem State.regular_chooseWith (k : State → State) (hk : ∀ t : State, t.Regular (k t)) : s.Regular (s.chooseWith k) := by
  have asked := State.regular_requestMember s
  unfold State.chooseWith
  split
  · split
    · exact State.regular_beginExchange ..
    · exact .refl s
  · split
    · exact State.regular_beginExchange ..
    · exact .refl s
  · split
    · exact State.regular_beginInvite s
    · dsimp only
      split
      · split
        · exact asked.trans (State.regular_beginPollData ..)
        · exact asked
      · exact asked.trans (hk _)
      · exact asked

theorem State.regular_choose : s.Regular s.choose :=
  State.regular_chooseWith s _ fun t => State.regular_chooseWith t id State.Regular.refl

theorem State.regular_wake : s.Regular s.wake := by
  unfold State.wake
  split
  · exact State.regular_choose s
  · exact .refl s

theorem State.regular_wakeIfInvitePending : s.Regular s.wakeIfInvitePending := by
  unfold State.wakeIfInvitePending
  split
  · exact State.regular_wake s
  · exact .refl s

theorem State.regular_enterIdle : s.Regular s.enterIdle :=
  (State.Regular.of_essence rfl : s.Regular (s.updTrunk fun t => { t with line := .idle })).trans
    (State.regular_choose _)

/-- The Candidate List as it stays (R141, R142). -/
def CandidatesOk (cs : List Candidate) : Prop :=
  cs.length ≤ 8 ∧ (cs.map Candidate.ticket).Nodup ∧ ∀ c ∈ cs, c.lapse ≤ 254 ∧ within 1 c.identity.length 16 = true

theorem State.regular_candidates {f : Admission → Admission} (hf : ∀ a, f a = { a with
    candidates := (f a).candidates, ticket := (f a).ticket })
    (h : s.SettingsOk → CandidatesOk (f s.adm).candidates) : s.Regular (s.updAdm f) :=
  .of_settings rfl rfl fun ok => by
    have kept := h ok
    obtain ⟨health, config, counters, adm, filters, -, rest⟩ := ok
    have same := hf s.adm
    unfold State.SettingsOk
    rw [State.adm_updAdm]
    refine ⟨health, config, counters, ?_, ?_, kept, rest⟩
    · rw [same]
      exact adm
    · rw [same]
      exact filters

theorem CandidatesOk.sublist {cs ds : List Candidate} (ok : CandidatesOk cs) (h : ds.Sublist cs) : CandidatesOk ds :=
  ⟨h.length_le.trans ok.1, ok.2.1.sublist (h.map _), fun c hc => ok.2.2 c (h.subset hc)⟩

theorem State.regular_filterCandidates (p : Candidate → Bool) :
    s.Regular (s.updAdm fun a => { a with candidates := a.candidates.filter p }) :=
  State.regular_candidates s (fun _ => rfl) fun ⟨_, _, _, _, _, ok, _⟩ =>
    CandidatesOk.sublist (cs := s.adm.candidates) ok List.filter_sublist

theorem State.regular_removeCandidate (identity : List Byte) : s.Regular (s.removeCandidate identity) :=
  State.regular_filterCandidates s _

/-- The tickets and identities after a lapse step are some of those before it. -/
theorem Candidate.lapseStep_some {limit : Nat} {heard : Option (List Byte)} {c d : Candidate}
    (h : c.lapseStep limit heard = some d) :
    d = { c with lapse := d.lapse } ∧ d.lapse < limit := by
  unfold Candidate.lapseStep at h
  dsimp only at h
  by_cases hl : limit ≤ if heard = some c.identity then c.lapse else c.lapse + 1
  · rw [if_pos hl] at h
    exact absurd h (by simp)
  · rw [if_neg hl, Option.some.injEq] at h
    subst h
    refine ⟨rfl, ?_⟩
    dsimp only
    split
    · next hh =>
      rw [if_pos hh] at hl
      omega
    · next hh =>
      rw [if_neg hh] at hl
      omega

theorem Candidate.lapseStep_map_sublist {α : Type} (f : Candidate → α) (hf : ∀ c n, f { c with lapse := n } = f c)
    (limit : Nat) (heard : Option (List Byte)) (cs : List Candidate) :
    ((cs.filterMap (Candidate.lapseStep limit heard)).map f).Sublist (cs.map f) := by
  induction cs with
  | nil => exact List.Sublist.slnil
  | cons c cs ih =>
    rw [List.filterMap_cons]
    cases h : c.lapseStep limit heard with
    | none => exact ih.cons _
    | some d =>
      dsimp only
      rw [List.map_cons, List.map_cons, (Candidate.lapseStep_some h).1, hf]
      exact ih.cons_cons _

theorem State.regular_stepLapses (heard : Option (List Byte)) : s.Regular (s.stepLapses heard) := by
  refine State.regular_candidates s (fun _ => rfl) fun ⟨_, _, _, ⟨_, _, limit, _⟩, _, ⟨len, tickets, each⟩, _⟩ => ?_
  refine ⟨(List.length_filterMap_le ..).trans len,
    tickets.sublist (Candidate.lapseStep_map_sublist Candidate.ticket (fun _ _ => rfl) ..), fun d hd => ?_⟩
  obtain ⟨c, hc, hstep⟩ := List.mem_filterMap.mp hd
  obtain ⟨same, lapse⟩ := Candidate.lapseStep_some hstep
  have := (within_iff.mp limit).2
  refine ⟨by omega, ?_⟩
  rw [same]
  exact (each c hc).2

end

end Sys2Proof.Machine
end

section
/-! New records, admissions, and the outcomes of exchanges and invitations, as they keep settings and names. -/

namespace Sys2Proof.Machine

/-! ### What a valid reply carries (R59) -/

theorem receive_whole {bytes frame : List Byte} {lost : Bool} (h : receive bytes lost = .whole frame) :
    frame.length = 8 + (frameByte frame 5).toNat := by
  cases lost
  · rw [receive_running] at h
    split at h
    · cases h
    split at h
    · cases h
    · cases h
      rw [frameByte_map (by omega), List.length_map, List.length_range]
  · rw [receive_lost] at h
    split at h
    · cases h
    split at h
    · cases h
    split at h
    · cases h
    next h6 =>
    split at h
    · cases h
    split at h
    · cases h
    next h8 =>
    cases h
    have same : frameByte bytes 5 = heard bytes 5 := (heard_of_lt (by omega)).symm
    rw [frameByte_take (by omega), same, List.length_take]
    omega

/-- The ranges of what a valid reply carries (R59). -/
theorem judge_valid_ranges {kind : ExchangeKind} {expected : Byte → Bool} {bytes : List Byte} {lost : Bool} {v : Reply}
    (h : judge kind expected (receive bytes lost) = .valid v) :
    (∀ identity, v.kind = .join identity → 1 ≤ identity.length ∧ identity.length ≤ 16)
      ∧ (∀ n, v.kind = .data n → n ≤ 120) ∧ ∀ n, v.kind = .hold n → n ≤ 4095 := by
  obtain ⟨frame, hrec, hformat, hreply, -⟩ := judge_valid h
  have payload : (framePayload frame).length = (frameByte frame 5).toNat := by
    rw [framePayload, List.length_take, List.length_drop, receive_whole hrec]
    omega
  rw [formatPasses_iff] at hformat
  rw [replyOf_eq] at hreply
  generalize framePayload frame = p at *
  generalize frameKind frame = code at *
  split at hreply
  · rw [Option.some.injEq] at hreply
    simp [← hreply]
  split at hreply
  · rw [Option.some.injEq] at hreply
    simp only [← hreply]
    simp
    omega
  split at hreply
  · rw [Option.some.injEq] at hreply
    have low : holdValue p ≤ 4095 := by
      rw [holdValue_eq]
      omega
    simp [← hreply, low]
  split at hreply
  · rw [Option.some.injEq] at hreply
    simp only [← hreply]
    simp
    omega
  split at hreply
  · rw [Option.some.injEq] at hreply
    simp [← hreply]
  · cases hreply

section
variable (s : State) (i : SlotNo) (x : Exchange)

/-! ### New records -/

/-- A new record in the slot at the head of the Free Slot List (R3). -/
theorem State.regular_create {s : State} {i : SlotNo} {rest : List SlotNo} (h : s.registry.freeSlots = i :: rest)
    (r : Record) (index : Vector (Option SlotNo) 256) :
    s.Regular { s with registry := { s.registry with
      slots := s.registry.slots.set i { gen := (s.slot i).gen + 1, record := some r }
      addressIndex := index
      freeSlots := rest } } where
  tame := ⟨id, id⟩
  named := by
    have slot : ∀ j : SlotNo, (s.registry.slots.set i { gen := (s.slot i).gen + 1, record := some r })[j] =
        if i = j then { gen := (s.slot i).gen + 1, record := some r } else s.slot j := fun j =>
      (s.slot_setSlot i j { gen := (s.slot i).gen + 1, record := some r } :)
    refine ⟨by rw [h]; exact List.suffix_cons .., fun nodup j => ?_⟩
    rw [h] at nodup
    unfold State.Names State.name State.record
    by_cases hj : i = j
    · subst hj
      refine .inr ⟨by rw [h]; exact List.mem_cons_self .., (List.nodup_cons.mp nodup).1, ?_, ?_⟩
      · exact congrArg Slot.gen ((slot i).trans (if_pos rfl))
      · exact congrArg (fun y : Slot => y.record.isSome) ((slot i).trans (if_pos rfl))
    · exact .inl (congrArg (fun y : Slot => (y.gen, y.record.map fun r : Record => (r.identity, r.address)))
        ((slot j).trans (if_neg hj)))

theorem State.regular_createRecord {s t : State} {i : SlotNo} {r : Record} (h : s.createRecord r = some (i, t)) :
    s.Regular t := by
  rcases s.createRecord_cases r with ⟨-, e⟩ | ⟨j, rest, hf, e⟩ <;> rw [e] at h
  · cases h
  · cases h
    exact State.regular_create hf r _

theorem State.regular_admitAt {s t : State} {i : SlotNo} {identity : List Byte} {cls : Class} {owner : Channel} {a : Byte}
    (h : s.admitAt identity cls owner a = some (i, t)) : s.Regular t := by
  unfold State.admitAt at h
  split at h
  · cases h
  · next j s1 hc =>
    cases h
    have queued : s.Regular (s1.joinAdmit i) := (State.regular_createRecord hc).then rfl
    exact queued.trans (State.regular_removeCandidate _ _)

theorem State.regular_attempt {s t : State} {identity : List Byte} {cls : Class} {owner : Channel}
    (h : s.attempt identity cls owner = some t) : s.Regular t := by
  unfold State.attempt at h
  split at h
  · cases h
  · next a _ =>
    cases hc : s.admitAt identity cls owner a with
    | none => rw [hc] at h; cases h
    | some v =>
      rw [hc] at h
      cases h
      exact State.regular_admitAt hc

theorem State.regular_retryAmong (cs : List Candidate) : s.Regular (s.retryAmong cs).1 := by
  induction cs generalizing s with
  | nil => exact .refl s
  | cons c cs ih =>
    unfold State.retryAmong
    split
    · exact ih s
    · split
      · exact .refl s
      · next h => exact (State.regular_attempt h).trans (ih _)

/-- A candidate added has a ticket that no other holds (R142). -/
theorem State.regular_addCandidate {identity : List Byte} (h : 1 ≤ identity.length ∧ identity.length ≤ 16)
    (d : Disposition) : s.Regular (s.addCandidate identity d) := by
  unfold State.addCandidate
  split
  · next room =>
    refine State.regular_candidates s (fun _ => rfl) fun ⟨_, _, _, _, _, ⟨_, tickets, each⟩, _⟩ => ?_
    obtain ⟨k, -, e, -, free⟩ := freeTicket_free (used := s.adm.candidates.map Candidate.ticket)
      (by rw [List.length_map]; exact room) s.adm.ticket
    rw [← e] at free
    refine ⟨by rw [List.length_append]; simpa using room, ?_, fun c hc => ?_⟩
    · rw [List.map_append]
      exact tickets.append (List.nodup_singleton _) (by simpa using free)
    · rcases List.mem_append.mp hc with hc | hc
      · exact each c hc
      · rw [List.mem_singleton.mp hc]
        exact ⟨Nat.zero_le _, within_iff.mpr h⟩
  · exact State.regular_updCounters s fun c => c.ok_candidateOverflow

theorem State.regular_attemptOrDefer {identity : List Byte} (h : 1 ≤ identity.length ∧ identity.length ≤ 16)
    (cls : Class) (owner : Channel) : s.Regular (s.attemptOrDefer identity cls owner) := by
  unfold State.attemptOrDefer
  split
  · next hs => exact State.regular_attempt hs
  · exact State.regular_addCandidate s h _

theorem State.regular_filterJoin {identity : List Byte} (h : 1 ≤ identity.length ∧ identity.length ≤ 16) :
    s.Regular (s.filterJoin identity) := by
  unfold State.filterJoin
  split
  · split
    · exact State.regular_attemptOrDefer s h _ _
    · exact State.regular_updCounters s fun c => c.ok_refusedJoin
  · exact State.regular_addCandidate s h _

theorem State.regular_evaluateJoin {identity : List Byte} (h : 1 ≤ identity.length ∧ identity.length ≤ 16) :
    s.Regular (s.evaluateJoin identity) := by
  unfold State.evaluateJoin
  split
  · split
    · exact .refl s
    · split
      · next hs => exact State.regular_attempt hs
      · exact .refl s
  · split
    · split
      · split
        · exact (State.Regular.of_essence (State.essence_enterRetirement s _ .rejoined false)).trans
            (State.regular_attemptOrDefer _ h _ _)
        · exact .refl s
      · exact .refl s
    · exact State.regular_filterJoin s h

theorem State.regular_endInvitation {join : Option (List Byte)}
    (h : ∀ identity, join = some identity → 1 ≤ identity.length ∧ identity.length ≤ 16) :
    s.Regular (s.endInvitation join) := by
  unfold State.endInvitation
  split
  · next identity =>
    exact (State.regular_faultClear s).trans ((State.regular_stepLapses _ _).trans
      ((State.regular_evaluateJoin _ (h identity rfl)).trans (State.regular_toGuard _)))
  · exact (State.regular_stepLapses s none).trans (State.regular_toGuard _)

/-! ### Outcomes -/

theorem State.regular_judgeInbound (ns : BitVec 3) (n : Nat) : s.Regular (s.judgeInbound i x ns n) := by
  unfold State.judgeInbound
  cases hr : s.record i with
  | none => exact .of_essence (State.essence_freeReserved s x)
  | some r =>
    dsimp only
    split
    · split
      · exact .of_essence (State.essence_deliver hr ..)
      · exact .refl s
    · split
      · exact .of_essence (State.essence_freeReserved s x)
      · exact (State.regular_updCounters s fun c => c.ok_unexpected).then (State.essence_freeReserved ..)

theorem State.regular_applyKind (v : Reply) : s.Regular (s.applyKind i x v) := by
  unfold State.applyKind
  split
  · exact State.regular_judgeInbound ..
  · exact .of_essence ((State.essence_freeReserved ..).trans (State.essence_applyHold ..))
  all_goals exact .of_essence (State.essence_freeReserved s x)

theorem State.regular_validReply (r : Record) (v : Reply) : s.Regular (s.validReply i r x v) := by
  have recovered : (if r.state = .silent then s.recover i else s).essence = s.essence := by
    split
    · exact State.essence_recover s i
    · rfl
  have judged : ∀ t : State, t.essence = s.essence →
      ((t.updRecord i fun r => { r with missCount := some 0, replies := satInc 65535 r.replies }).judgeAck i x v).essence
        = s.essence := fun t h => by
    refine (State.essence_judgeAck ..).trans ((State.essence_updRecord _ _ _ ?_).trans h)
    exact fun _ => rfl
  have applied : ∀ t : State, t.essence = s.essence → s.Regular (t.applyKind i x v).releaseTarget := fun t h =>
    ((State.Regular.of_essence h).trans (State.regular_applyKind t i x v)).then rfl
  unfold State.validReply
  dsimp only
  split
  · exact (applied _ (judged _ recovered)).then (State.essence_enterRetirement ..)
  · exact applied _ (judged _ recovered)

theorem State.regular_retiringOutcome (r : Record) (reply : Option Reply) :
    s.Regular (s.retiringOutcome i r x reply) := by
  have wound : ∀ t : State, ((((t.freeReserved x).freeCarried i x).releaseTarget).settleRetiring i).essence = t.essence :=
    fun t => (State.essence_settleRetiring (State.releaseTarget _) i).trans
      ((State.essence_freeCarried ..).trans (State.essence_freeReserved t x))
  unfold State.retiringOutcome
  dsimp only
  split
  · exact (State.regular_updCounters s fun c => c.ok_unexpected).then (wound _)
  · exact .of_essence (wound s)

theorem State.regular_pollDataOutcome (reply : Option Reply) : s.Regular (s.pollDataOutcome i x reply) := by
  have released : s.Regular (s.freeReserved x).releaseTarget := .of_essence (State.essence_freeReserved s x)
  have member : ∀ r : Record, s.Regular (match reply with
      | some v => s.validReply i r x v
      | none => s.missed i r x) := fun r => by
    cases reply with
    | none => exact .of_essence (State.essence_missed s i x r)
    | some v => exact State.regular_validReply s i x r v
  unfold State.pollDataOutcome
  cases s.record i with
  | none => exact released
  | some r =>
    dsimp only
    cases r.state
    case active => exact member r
    case silent => exact member r
    case suspended => exact member r
    case retiring => exact State.regular_retiringOutcome ..
    all_goals exact released

theorem State.regular_outcome (reply : Option Reply) : s.Regular (s.outcome reply) := by
  have counted : s.Regular (if reply.isSome = true then s.faultClear else s.faultMiss) :=
    .ite (fun _ => State.regular_faultClear s) fun _ => State.regular_faultMiss s
  unfold State.outcome
  split
  · next kind h ns ob rs _ =>
    dsimp only
    refine State.Regular.trans ?_ (State.regular_toGuard _)
    cases kind
    case poll => exact counted.trans (State.regular_pollDataOutcome ..)
    case data => exact counted.trans (State.regular_pollDataOutcome ..)
    case admitExchange => exact counted.then (State.essence_admitOutcome ..)
    case invite => exact counted
    case dismiss => exact counted
  · exact .refl s

theorem State.regular_missByTimeout : s.Regular s.missByTimeout :=
  (State.regular_updCounters s fun c => c.ok_timeout).trans (State.regular_outcome _ _)

theorem State.regular_replyEnds (bytes : List Byte) (lost : Bool) : s.Regular (s.replyEnds bytes lost) := by
  have taken := State.regular_takePayload s (dataPayloadTaken bytes lost)
  unfold State.replyEnds
  dsimp only
  split
  · exact .refl s
  · split
    · exact ((taken.then (State.essence_takeLength ..)).trans (State.regular_outcome ..)).then
        (State.essence_returnLength ..)
    · exact (taken.trans (State.regular_updCounters _ fun c h => c.ok_countReply h _)).trans (State.regular_outcome ..)

theorem State.regular_joinEnds (bytes : List Byte) (lost : Bool) : s.Regular (s.joinEnds bytes lost) := by
  unfold State.joinEnds
  split
  · next v hv =>
    split
    · next identity hj =>
      refine State.regular_endInvitation s fun id e => ?_
      cases e
      exact (judge_valid_ranges hv).1 identity hj
    all_goals exact .refl s
  · next e _ =>
    have counted := State.regular_updCounters s fun c h => Counters.ok_countJoin (c := c) h e
    dsimp only
    split
    · exact counted.trans (State.regular_endInvitation _ fun _ e => nomatch e)
    · exact counted.then rfl

theorem State.essence_wound : (s.wound i x).essence = s.essence :=
  (State.essence_settleRetiring (State.releaseTarget _) i).trans
    ((State.essence_freeCarried ..).trans (State.essence_freeReserved s x))

theorem State.regular_abortExchange : s.Regular s.abortExchange := by
  have dropped := State.regular_dropReception s
  unfold State.abortExchange
  split
  · have released : ∀ x, s.Regular (s.dropReception.freeReserved x).releaseTarget := fun x =>
      dropped.then (State.essence_freeReserved ..)
    split
    · split
      · exact dropped.then (State.essence_wound ..)
      · exact released _
    · exact released _
  · exact .refl s

theorem State.regular_cutShort : s.Regular s.cutShort := by
  unfold State.cutShort
  split
  · exact State.regular_missByTimeout s
  · exact State.regular_missByTimeout s
  · exact State.regular_missByTimeout s
  · exact State.regular_toGuard s
  · exact .of_essence (State.essence_dismissOutcome s)
  · exact .refl s

theorem State.regular_guardRunsOut : s.Regular s.guardRunsOut := by
  unfold State.guardRunsOut
  split
  · exact (State.regular_toOff s).then (State.essence_endDrain ..)
  · dsimp only
    split
    · exact .of_essence rfl
    · exact (State.Regular.of_essence rfl :
        s.Regular (s.updTrunk fun t => { t with current := none, guardTimer := none })).trans (State.regular_enterIdle _)

end

end Sys2Proof.Machine
end

section
/-! Every row of the table keeps the memory and the settings, and all but three the names of the records. -/

namespace Sys2Proof.Machine

variable {s t : State} {ch : Channel}

theorem State.regular_retryDeferred (s : State) : s.Regular s.retryDeferred.1 := s.regular_retryAmong _

/-! ### Rows -/

theorem unlessReset_cases {f : State → State} (h : unlessReset f s = .next t) :
    t = s ∨ s.resetIn = false ∧ t = f s := by
  unfold unlessReset at h
  cases hr : s.resetIn <;> rw [hr] at h <;> cases h
  · exact .inr ⟨rfl, rfl⟩
  · exact .inl rfl

/-- A host command does nothing in reset, is written and waits, or is taken (R189 to R192). -/
theorem command_cases {code opts : Byte} {body : Channel → State → State} (h : command code body ch opts s = .next t) :
    t = s ∨ s.resetIn = false ∧ t = s.issued ch code opts
      ∨ s.resetIn = false ∧ (s.issued ch code opts).engineTakes ch code = true
        ∧ t = body ch ((s.issued ch code opts).taken ch) := by
  rcases unlessReset_cases h with e | ⟨hr, e⟩
  · exact .inl e
  · cases he : (s.issued ch code opts).engineTakes ch code with
    | true => exact .inr (.inr ⟨hr, rfl, e.trans (if_pos he)⟩)
    | false => exact .inr (.inl ⟨hr, e.trans (if_neg (ne_true_of_eq_false he))⟩)

theorem State.essence_atTake (s : State) (ch : Channel) (code opts : Byte) :
    ((s.issued ch code opts).taken ch).essence = s.essence :=
  (State.essence_taken ..).trans (State.essence_issued ..)

theorem regular_command {code opts : Byte} {body : Channel → State → State} (hb : ∀ u : State, u.Regular (body ch u))
    (h : command code body ch opts s = .next t) : s.Regular t := by
  rcases command_cases h with e | ⟨-, e⟩ | ⟨-, -, e⟩ <;> rw [e]
  · exact .refl s
  · exact .of_essence (State.essence_issued ..)
  · exact (State.Regular.of_essence (State.essence_atTake ..)).trans (hb _)

theorem tame_command {code opts : Byte} {body : Channel → State → State} (hb : ∀ u : State, u.Tame (body ch u))
    (h : command code body ch opts s = .next t) : s.Tame t := by
  rcases command_cases h with e | ⟨-, e⟩ | ⟨-, -, e⟩ <;> rw [e]
  · exact (State.Regular.refl s).tame
  · exact (State.Regular.of_essence (State.essence_issued ..)).tame
  · exact (State.Regular.of_essence (State.essence_atTake ..)).tame.trans (hb _)

theorem regular_unlessReset {f : State → State} (hf : s.Regular (f s)) (h : unlessReset f s = .next t) : s.Regular t := by
  rcases unlessReset_cases h with e | ⟨-, e⟩ <;> rw [e]
  · exact .refl s
  · exact hf

theorem State.Regular.complete (h : s.Regular t) (code : ResultCode) (ws : List Word) :
    s.Regular (t.complete ch code ws) := h.then (State.essence_complete ..)

theorem State.regular_complete (s : State) (ch : Channel) (code : ResultCode) (ws : List Word) :
    s.Regular (s.complete ch code ws) := (State.Regular.refl s).complete code ws

theorem State.regular_fail (s : State) (ch : Channel) (code : ResultCode) : s.Regular (s.fail ch code) :=
  s.regular_complete ch code []

theorem regular_onChannel0 {k : State} (h : s.Regular k) : s.Regular (onChannel0 ch s k) := by
  cases ch
  · exact h
  · exact s.regular_fail _ _

theorem regular_withRecord {changes argsOk : Bool} {k : SlotNo → Record → State}
    (h : ∀ i r, s.record i = some r → s.Regular (k i r)) : s.Regular (withRecord ch s changes argsOk k) := by
  unfold withRecord
  split
  · exact s.regular_fail _ _
  · split
    · split
      · exact s.regular_fail _ _
      · next r hr =>
        split
        · exact s.regular_fail _ _
        · split
          · exact s.regular_fail _ _
          · exact h _ r hr
    · exact s.regular_fail _ _

/-! ### Registry commands -/

theorem State.regular_enrol (s : State) (ch : Channel) (address : Byte) (identity : List Byte) (cls : Class)
    (owner : Channel) : s.Regular (s.enrol ch address identity cls owner) := by
  unfold State.enrol
  split
  · exact s.regular_fail _ _
  · next i s1 hc =>
    have created : s.Regular (s1.appendRing i) := (State.regular_createRecord hc).then rfl
    dsimp only
    refine State.Regular.complete ?_ _ _
    split
    · exact (created.trans (State.regular_removeCandidate ..)).trans (State.regular_wakeIfInvitePending _)
    · exact created

theorem regular_bodyEnrol (s : State) : s.Regular (bodyEnrol ch s) := by
  unfold bodyEnrol
  refine regular_onChannel0 ?_
  split
  · split
    · dsimp only
      refine .ite (fun _ => s.regular_fail _ _) fun _ => .ite (fun _ => s.regular_fail _ _) fun _ =>
        .ite (fun _ => s.regular_fail _ _) fun _ => State.regular_enrol ..
    · exact s.regular_fail _ _
  · exact s.regular_fail _ _

theorem regular_bodyRetire (s : State) : s.Regular (bodyRetire ch s) := by
  refine regular_withRecord fun i r _ => ?_
  have retired : s.Regular
      (if s.option1 ch = true then (s.enterRetirement i .host (s.option1 ch)).wake
        else s.enterRetirement i .host (s.option1 ch)) := by
    have entered : s.Regular (s.enterRetirement i .host (s.option1 ch)) := .of_essence (State.essence_enterRetirement ..)
    split
    · exact entered.trans (State.regular_wake _)
    · exact entered
  cases r.state
  case retiring => exact s.regular_fail _ _
  case retired => exact s.regular_fail _ _
  all_goals exact retired.complete _ _

/-- A record's fields other than its identity and address changed, and the command completed. -/
theorem regular_changed {i : SlotNo} {r q : Record} (hr : s.record i = some r)
    (h : (q.identity, q.address) = (r.identity, r.address)) (code : ResultCode) (ws : List Word) :
    s.Regular ((s.setRecord i (some q)).complete ch code ws) :=
  (State.Regular.of_essence (State.essence_setRecord hr h)).complete code ws

theorem regular_bodySuspend (s : State) : s.Regular (bodySuspend ch s) := by
  refine regular_withRecord fun i r hr => ?_
  cases r.state
  case active => 
    refine regular_changed hr ?_ _ _
    rfl
  case silent =>
    refine regular_changed hr ?_ _ _
    rfl
  all_goals exact s.regular_fail _ _

theorem regular_bodyResume (s : State) : s.Regular (bodyResume ch s) := by
  refine regular_withRecord fun i r hr => ?_
  cases r.state
  case suspended =>
    refine regular_changed hr ?_ _ _
    rfl
  all_goals exact s.regular_fail _ _

theorem regular_bodySetClass (s : State) : s.Regular (bodySetClass ch s) := by
  refine regular_withRecord fun i r hr => ?_
  cases r.state
  case retiring => exact s.regular_fail _ _
  case retired => exact s.regular_fail _ _
  all_goals
    refine .ite (fun _ => s.regular_complete _ _ _) fun _ => regular_changed hr ?_ _ _
    rfl

theorem regular_bodyTransfer (s : State) : s.Regular (bodyTransfer ch s) := by
  refine regular_onChannel0 (regular_withRecord fun i r hr => ?_)
  cases r.state
  case retired => exact s.regular_fail _ _
  all_goals exact .ite (fun _ => s.regular_complete _ _ _) fun _ =>
    (State.Regular.of_essence (State.essence_transferRecord hr _)).complete _ _

theorem regular_bodyReadStation (s : State) : s.Regular (bodyReadStation ch s) :=
  regular_withRecord fun _ _ _ => s.regular_complete _ _ _

theorem regular_bodyReadIdentity (s : State) : s.Regular (bodyReadIdentity ch s) := by
  refine regular_withRecord fun i r _ => ?_
  split
  · exact s.regular_fail _ _
  · exact .ite (fun _ => (State.regular_stageOut ..).complete _ _) fun _ => s.regular_fail _ _

theorem regular_bodyFindAddress (s : State) : s.Regular (bodyFindAddress ch s) := by
  unfold bodyFindAddress
  refine .ite (fun _ => ?_) fun _ => s.regular_fail _ _
  split
  · exact s.regular_complete _ _ _
  · exact s.regular_fail _ _

theorem regular_bodyFindIdentity (s : State) : s.Regular (bodyFindIdentity ch s) := by
  unfold bodyFindIdentity
  split
  · exact s.regular_fail _ _
  · refine .ite (fun _ => .ite (fun _ => ?_) fun _ => s.regular_fail _ _) fun _ => s.regular_fail _ _
    split
    · exact s.regular_complete _ _ _
    · exact s.regular_fail _ _

theorem regular_bodyNextStation (s : State) : s.Regular (bodyNextStation ch s) := by
  unfold bodyNextStation
  refine .ite (fun _ => ?_) fun _ => s.regular_fail _ _
  split
  · exact s.regular_complete _ _ _
  · exact s.regular_fail _ _

/-! ### Settings -/

theorem inRange_within {w : Word} {low high : Nat} (h : inRange w low high = true) : within low w.toNat high = true := h

theorem State.regular_setDivisor (s : State) {d : Nat} (h : within 2 d 16 = true) : s.Regular (s.setDivisor d) := by
  by_cases hd : d = s.poll.slowDivisor
  · rw [State.setDivisor, if_pos hd]
    exact .refl s
  have frame := State.setDivisor_frame hd
  refine ⟨⟨fun wf => by rw [frame]; exact wf, fun ok => ?_⟩, .of_names (funext fun i => ?_) (by rw [frame])⟩
  · rw [frame]
    obtain ⟨⟨-, h2⟩, rest⟩ := ok
    exact ⟨⟨h, h2⟩, rest⟩
  · unfold State.name
    rw [State.gen_setDivisor, State.record_setDivisor hd, Option.map_map]
    refine congrArg (fun f : Record → List Byte × Byte => ((s.slot i).gen, (s.record i).map f)) (funext fun r => ?_)
    dsimp only [Function.comp]
    split <;> rfl

theorem regular_bodySetPolling (s : State) : s.Regular (bodySetPolling ch s) := by
  refine regular_onChannel0 (.ite (fun _ => s.regular_complete _ _ _) fun _ => .ite (fun h => ?_) fun _ => s.regular_fail _ _)
  exact (State.regular_setDivisor s (inRange_within h)).complete _ _

theorem State.regular_config (s : State) {c : LineConfig} (h : within 2 c.divisor 4095 = true
    ∧ within 1 c.replyTimeout 255 = true ∧ within 1 c.joinWindow 255 = true ∧ within 8 c.guardTime 255 = true) :
    s.Regular (s.updTrunk fun t => { t with config := c }) :=
  .of_settings rfl rfl fun ⟨health, _, rest⟩ => ⟨health, h, rest⟩

theorem State.configArgs_ok {c : LineConfig} (h : s.configArgs ch = some c) : within 2 c.divisor 4095 = true
    ∧ within 1 c.replyTimeout 255 = true ∧ within 1 c.joinWindow 255 = true ∧ within 8 c.guardTime 255 = true := by
  unfold State.configArgs at h
  split at h
  · cases h
  · split at h
    · next ok =>
      cases h
      simp only [Bool.and_eq_true] at ok
      obtain ⟨⟨⟨h1, h2⟩, h3⟩, h4⟩ := ok
      exact ⟨h1, h2, h3, h4⟩
    · cases h

theorem regular_bodyConfigureLine (s : State) : s.Regular (bodyConfigureLine ch s) := by
  refine regular_onChannel0 (.ite (fun _ => s.regular_complete _ _ _) fun _ => ?_)
  split
  · exact s.regular_fail _ _
  · next hc =>
    exact .ite (fun _ => (State.regular_config s (State.configArgs_ok hc)).complete _ _) fun _ => s.regular_fail _ _

theorem regular_bodyReadLineStatus (s : State) : s.Regular (bodyReadLineStatus ch s) := by
  unfold bodyReadLineStatus
  dsimp only
  refine .ite (fun _ => s.regular_fail _ _) fun _ => .ite (fun _ => s.regular_fail _ _) fun _ => ?_
  refine State.Regular.complete (.ite (fun _ => ?_) fun _ => .refl s) _ _
  exact State.regular_updCounters s fun c h => Counters.ok_clearPage (c := c) h _

theorem regular_bodyStartLine (s : State) : s.Regular (bodyStartLine ch s) := by
  refine regular_onChannel0 (.ite (fun _ => ?_) fun _ => s.regular_fail _ _)
  exact ((State.regular_faultRun s rfl rfl rfl rfl rfl).trans (State.regular_enterIdle _)).complete _ _

theorem State.regular_stopAbort (s : State) : s.Regular (s.stopAbort ch) := by
  have off : s.Regular s.toOff := s.regular_toOff
  have aborted : s.Regular (s.abortExchange.toOff.endDrain endedAborted) :=
    (s.regular_abortExchange.trans (State.regular_toOff _)).then (State.essence_endDrain ..)
  unfold State.stopAbort
  dsimp only
  split
  · exact s.regular_complete _ _ _
  · exact off.complete _ _
  · exact off.complete _ _
  · exact aborted.complete _ _
  · exact aborted.complete _ _
  · exact (off.then (State.essence_endDrain ..)).complete _ _

theorem State.regular_stopDrain (s : State) : s.Regular (s.stopDrain ch) := by
  have off : s.Regular s.toOff := s.regular_toOff
  unfold State.stopDrain
  dsimp only
  split
  · exact s.regular_complete _ _ _
  · exact off.complete _ _
  · exact off.complete _ _
  · exact off.complete _ _
  · exact .of_essence rfl
  · exact .of_essence rfl

theorem regular_bodyStopLine (s : State) : s.Regular (bodyStopLine ch s) := by
  unfold bodyStopLine
  split
  · exact s.regular_stopAbort
  · exact .ite (fun _ => s.regular_fail _ _) fun _ => s.regular_stopDrain
  · exact s.regular_fail _ _
  · exact s.regular_fail _ _

theorem regular_bodySetHealth (s : State) : s.Regular (bodySetHealth ch s) := by
  refine regular_onChannel0 (.ite (fun _ => s.regular_complete _ _ _) fun _ => .ite (fun h => ?_) fun _ => s.regular_fail _ _)
  simp only [Bool.and_eq_true] at h
  obtain ⟨⟨⟨h1, h2⟩, h3⟩, h4⟩ := h
  refine State.Regular.complete ?_ _ _
  refine .of_settings rfl rfl ?_
  exact fun ⟨⟨divisor, _, _, _, _, run⟩, rest⟩ => ⟨⟨divisor, h1, h2, h3, h4, run⟩, rest⟩

theorem regular_bodyClearHold (s : State) : s.Regular (bodyClearHold ch s) := by
  refine regular_withRecord fun i r _ => ?_
  have ended : s.Regular (if r.hold.isSome = true then s.endHold i else s) :=
    .ite (fun _ => .of_essence (State.essence_endHold s i)) fun _ => .refl s
  cases r.state
  case active => exact ended.complete _ _
  case silent => exact ended.complete _ _
  case suspended => exact ended.complete _ _
  all_goals exact s.regular_fail _ _

theorem State.regular_writeAdmission (s : State) {interval width lapse lower upper : Nat}
    (h1 : within 0 interval 255 = true) (h2 : within 0 width 3 = true) (h3 : within 1 lapse 255 = true)
    (h4 : within 1 lower 254 = true) (h5 : within 1 upper 254 = true) (h6 : lower ≤ upper) :
    s.Regular (s.writeAdmission interval width lapse lower upper) := by
  refine .of_settings rfl rfl fun ⟨health, config, counters, ⟨_, _, _, _, _, partition, _⟩, rest⟩ => ?_
  obtain ⟨h4, -⟩ := within_iff.mp h4
  obtain ⟨-, h5⟩ := within_iff.mp h5
  refine ⟨health, config, counters, ⟨h1, h2, h3, within_iff.mpr ⟨h4, h6⟩, within_iff.mpr ⟨h6, h5⟩, ?_, ?_⟩, rest⟩
  · show (if width = s.adm.width then s.adm.nextPartition else 0) < 2 ^ width
    split
    · next hw => rw [hw]; exact partition
    · exact Nat.two_pow_pos width
  · show if interval = 0 then interval = 0 else within 1 interval interval = true
    split
    · next hi => exact hi
    · next hi => exact within_iff.mpr ⟨Nat.one_le_iff_ne_zero.mpr hi, le_refl _⟩

theorem regular_bodySetAdmission (s : State) : s.Regular (bodySetAdmission ch s) := by
  refine regular_onChannel0 (.ite (fun _ => s.regular_complete _ _ _) fun _ => .ite (fun h => ?_) fun _ => s.regular_fail _ _)
  unfold State.admissionArgsOk at h
  simp only [Bool.and_eq_true, decide_eq_true_eq] at h
  obtain ⟨⟨⟨⟨⟨h1, h2⟩, h3⟩, h4⟩, h5⟩, h6⟩ := h
  have written := State.regular_writeAdmission s h1 h2 h3 h4 h5 h6
  have tried := written.trans (State.regular_retryDeferred _)
  exact State.Regular.complete (.ite (fun _ => tried) fun _ => tried.trans (State.regular_wake _)) _ _

theorem State.regular_setFilter (s : State) (n : Fin 8) {f : Filter} (h : f.minLength ≤ 16) :
    s.Regular (s.setFilter n f) := by
  refine .of_settings rfl rfl fun ⟨health, config, counters, adm, filters, rest⟩ => ?_
  refine ⟨health, config, counters, adm, fun m => ?_, rest⟩
  have at_m : (s.setFilter n f).adm.filters[m] = if n.val = m.val then f else s.adm.filters[m] := by
    unfold State.setFilter State.updAdm
    rw [Fin.getElem_fin, Vector.getElem_set]
    rfl
  rw [at_m]
  split
  · exact h
  · exact filters m

theorem State.filterArgs_minLength {n : Fin 8} {f : Filter} (h : s.filterArgs ch = some (n, f)) : f.minLength ≤ 16 := by
  unfold State.filterArgs at h
  dsimp only at h
  split at h
  · split at h
    · split at h
      · next hl =>
        cases h
        exact hl
      · cases h
    · cases h
  · cases h

theorem regular_bodyWriteFilter (s : State) : s.Regular (bodyWriteFilter ch s) := by
  refine regular_onChannel0 ?_
  split
  · exact s.regular_fail _ _
  · next n f hf =>
    have short := State.filterArgs_minLength hf
    refine .ite (fun _ => (State.regular_setFilter s n short).complete _ _) fun _ => ?_
    split
    · exact s.regular_fail _ _
    · refine .ite (fun _ => State.Regular.complete ?_ _ _) fun _ => s.regular_fail _ _
      exact State.regular_setFilter s n short

theorem regular_bodyReadFilter (s : State) : s.Regular (bodyReadFilter ch s) := by
  refine regular_onChannel0 ?_
  split
  · split
    · exact s.regular_fail _ _
    · exact .ite (fun _ => s.regular_complete _ _ _) fun _ =>
        .ite (fun _ => (State.regular_stageOut ..).complete _ _) fun _ => s.regular_fail _ _
  · exact s.regular_fail _ _

theorem regular_bodyReadCandidate (s : State) : s.Regular (bodyReadCandidate ch s) := by
  refine regular_onChannel0 (.ite (fun _ => ?_) fun _ => s.regular_fail _ _)
  split
  · exact s.regular_fail _ _
  · refine .ite (fun _ => ?_) fun _ => s.regular_fail _ _
    split
    · exact s.regular_fail _ _
    · exact (State.regular_stageOut ..).complete _ _

theorem State.regular_approve (s : State) (c : Candidate) (cls : Class) (owner : Channel) (address : Nat) :
    s.Regular (s.approve ch c cls owner address) := by
  unfold State.approve
  refine .ite (fun _ => s.regular_fail _ _) fun _ => ?_
  split
  · exact s.regular_fail _ _
  · split
    · exact s.regular_fail _ _
    · next h => exact ((State.regular_admitAt h).trans (State.regular_wake _)).complete _ _

theorem regular_bodyApprove (s : State) : s.Regular (bodyApprove ch s) := by
  refine regular_onChannel0 ?_
  split
  · exact s.regular_fail _ _
  · refine .ite (fun _ => ?_) fun _ => s.regular_fail _ _
    split
    · exact s.regular_fail _ _
    · exact s.regular_approve ..

theorem regular_bodyReject (s : State) : s.Regular (bodyReject ch s) := by
  refine regular_onChannel0 (.ite (fun _ => ?_) fun _ => s.regular_fail _ _)
  split
  · exact s.regular_fail _ _
  · exact ((State.regular_filterCandidates s _).trans (State.regular_wakeIfInvitePending _)).complete _ _

/-! ### Buffers -/

theorem regular_bodyAllocate (s : State) : s.Regular (bodyAllocate ch s) := by
  unfold bodyAllocate
  refine .ite (fun _ => s.regular_fail _ _) fun _ => ?_
  split
  · exact s.regular_fail _ _
  · refine State.Regular.complete ?_ _ _
    exact .of_essence rfl

theorem regular_bodyRelease (s : State) : s.Regular (bodyRelease ch s) := by
  unfold bodyRelease
  split
  · exact s.regular_fail _ _
  · refine .ite (fun _ => State.Regular.complete ?_ _ _) fun _ => s.regular_fail _ _
    exact .of_essence rfl

theorem regular_bodySend (s : State) : s.Regular (bodySend ch s) := by
  refine regular_withRecord fun i r hr => ?_
  split
  · exact s.regular_fail _ _
  · next b _ =>
    refine .ite (fun _ => s.regular_fail _ _) fun _ => .ite (fun _ => s.regular_fail _ _) fun _ =>
      .ite (fun _ => s.regular_fail _ _) fun _ => State.Regular.complete (.of_essence ?_) _ _
    exact State.essence_setRecord (s := s.setBuffer b _) hr rfl

theorem regular_bodyTakeMessage (s : State) : s.Regular (bodyTakeMessage ch s) := by
  unfold bodyTakeMessage
  split
  · exact s.regular_fail _ _
  · dsimp only
    refine State.Regular.complete (.of_essence ?_) _ _
    exact State.essence_setPort _ _ _ rfl

theorem regular_bodySetReserve (s : State) : s.Regular (bodySetReserve ch s) := by
  refine regular_onChannel0 (.ite (fun _ => s.regular_complete _ _ _) fun _ => .ite (fun h => ?_) fun _ => s.regular_fail _ _)
  refine State.Regular.complete ?_ _ _
  refine .of_settings rfl rfl ?_
  exact fun ⟨h1, h2, h3, h4, h5, h6, _, rest⟩ => ⟨h1, h2, h3, h4, h5, h6, (within_iff.mp (inRange_within h)).2, rest⟩

/-- TAKE CHANGE of a RETIRED record frees its slot; every other entry keeps the names. -/
theorem tame_bodyTakeChange (s : State) : s.Tame (bodyTakeChange ch s) := by
  unfold bodyTakeChange
  split
  · exact (s.regular_fail _ _).tame
  · next i rest _ =>
    have taken : (s.setPort ch { s.port ch with changeList := rest }).essence = s.essence := State.essence_setPort _ _ _ rfl
    unfold State.takeEntry
    dsimp only
    split
    · exact ((State.Regular.of_essence taken).then (State.essence_fail ..)).tame
    · next r hr =>
      split
      · have freed : s.Tame ((s.setPort ch { s.port ch with changeList := rest }).freeSlot i) :=
          (State.Regular.of_essence taken).tame.trans ⟨id, id⟩
        have tried := freed.trans (State.regular_retryDeferred _).tame
        refine State.Tame.trans ?_ (State.regular_complete _ ch _ _).tame
        split
        · exact tried
        · exact tried.trans (State.regular_wake _).tame
      · refine ((State.Regular.of_essence taken).trans (regular_changed hr ?_ _ _)).tame
        rfl

/-! ### Resets -/

theorem State.tame_resetBlocks (s : State) : s.Tame s.resetBlocks where
  mem := id
  settings := fun ⟨⟨divisor, silence, lost, retry, fault, _⟩, config, _, ⟨a1, a2, a3, a4, a5, _, _⟩, filters, _, floor,
      enables, _⟩ =>
    ⟨⟨divisor, silence, lost, retry, fault, rfl⟩, config, ⟨rfl, rfl, rfl, rfl, rfl, rfl, rfl, rfl⟩,
      ⟨a1, a2, a3, a4, a5, Nat.two_pow_pos _, by
        show if s.adm.interval = 0 then s.adm.interval = 0 else within 1 s.adm.interval s.adm.interval = true
        split
        · next h => exact h
        · next h => exact within_iff.mpr ⟨Nat.one_le_iff_ne_zero.mpr h, le_refl _⟩⟩,
      filters, ⟨Nat.zero_le _, List.nodup_nil, fun _ h => nomatch h⟩, floor, enables, rfl⟩

theorem State.essence_discardOther (s : State) : s.discardOther.essence = s.essence := by
  unfold State.discardOther
  split
  · exact State.essence_complete ..
  · exact State.essence_complete ..
  · rfl
  · rfl

theorem tame_bodyResetRegistry (s : State) : s.Tame (bodyResetRegistry ch s) := by
  cases ch
  · refine State.Tame.trans (s.regular_dropReception.tame.trans (State.tame_resetBlocks _)) ?_
    exact (State.Regular.of_essence (State.essence_discardOther _)).tame.trans (State.regular_complete _ .ch0 _ _).tame
  · exact (s.regular_fail .ch1 .notPermitted).tame

/-! ### The words of the bus -/

theorem State.regular_writeEnable (s : State) (v : Word) : s.Regular (s.writeEnable ch v) := by
  cases ch with
  | ch0 => exact .of_essence (State.essence_setPort s .ch0 _ rfl :)
  | ch1 =>
    refine .of_settings rfl rfl fun ⟨h1, h2, h3, h4, h5, h6, h7, _, h9⟩ => ⟨h1, h2, h3, h4, h5, h6, h7, ?_, h9⟩
    show v.setWidth 6 &&& (0x0F : BitVec 6) &&& 0x30 = 0
    rw [BitVec.and_assoc]
    exact BitVec.and_zero

theorem State.essence_writeCause (s : State) (v : Word) : (s.writeCause ch v).essence = s.essence := by
  cases ch <;> rfl

theorem State.essence_writeArg (s : State) (n : Fin 6) (v : Word) : (s.writeArg ch n v).essence = s.essence := by
  unfold State.writeArg
  dsimp only
  split
  · exact State.essence_setPort _ _ _ rfl
  · exact State.essence_setPort _ _ _ rfl
  · rfl
  · rfl

theorem State.essence_readWindow (s : State) : (s.readWindow ch).essence = s.essence := by
  have read : ∀ v, (s.setReadData ch v).essence = s.essence := fun v => State.essence_setPort _ _ _ rfl
  unfold State.readWindow
  split
  · refine (State.essence_setPort _ _ _ ?_).trans (read _)
    rfl
  · refine (State.essence_setPort _ _ _ ?_).trans (read _)
    rfl

theorem State.regular_busWrite (s : State) (addr : BitVec 5) (v : Word) : s.Regular (s.busWrite addr v) := by
  have arg : ∀ n, s.Regular (s.writeArg (addrChannel addr) n v) := fun n => .of_essence (State.essence_writeArg ..)
  unfold State.busWrite
  dsimp only
  split
  · exact .of_essence (State.essence_writeCommand ..)
  · exact arg _
  · exact arg _
  · exact arg _
  · exact arg _
  · exact arg _
  · exact arg _
  · exact .of_essence (State.essence_writeCause ..)
  · exact s.regular_writeEnable v
  · exact .of_essence (State.essence_setPort _ _ _ rfl)
  · exact s.regular_writeWindow _ v
  · exact .refl s

end Sys2Proof.Machine
end

section
/-! The step: memory and settings kept (O56), and a handle names one record (O60). -/

namespace Sys2Proof.Machine

variable {s t : State}

/-- The rows that free slots or discard the registry. -/
def Instr.freesSlots : Instr → Prop
  | .takeChange _ _ | .resetRegistry _ _ | .pinReset _ => True
  | _ => False

theorem regular_badCommand {ch : Channel} {opts code : Byte} (h : execBadCommand ch opts code s = .next t) :
    s.Regular t := by
  refine regular_unlessReset ?_ h
  refine .ite (fun _ => ?_) fun _ => .of_essence (State.essence_issued ..)
  exact .of_essence ((State.essence_fail ..).trans (State.essence_atTake ..))

theorem regular_windowDataRead {ch : Channel} (h : execWindowDataRead ch s = .next t) : s.Regular t := by
  unfold execWindowDataRead at h
  split at h <;> cases h
  · exact .of_essence (State.essence_setPort _ _ _ rfl)
  · exact .of_essence (State.essence_readWindow s)

theorem regular_clockLoss {bytes : List Byte} (h : execClockLoss bytes s = .next t) : s.Regular t := by
  refine regular_unlessReset (.ite (fun _ => ?_) fun _ => .refl s) h
  split
  · exact s.regular_cutShort
  · exact .ite (fun _ => .ite (fun _ => s.regular_replyEnds ..) fun _ =>
      .ite (fun _ => s.regular_joinEnds ..) fun _ => .refl s) fun _ => .refl s
  · exact s.regular_dropStray
  · exact s.regular_dropStray
  · exact s.regular_dropStray
  · exact .refl s

theorem regular_strayFrame (h : execStrayFrame s = .next t) : s.Regular t := by
  have heard : ∀ bits, s.Regular ((s.updTrunk fun t => { t with lineIn := t.lineIn.tail }).hearBits bits) := fun bits =>
    (State.Regular.of_essence rfl : s.Regular (s.updTrunk fun t => { t with lineIn := t.lineIn.tail })).trans
      (State.regular_hearBits _ bits)
  refine regular_unlessReset ?_ h
  dsimp only
  split
  · exact heard _
  · exact heard _
  · exact heard _
  · exact s.regular_passStray
  · exact s.regular_passStray
  · exact s.regular_passStray
  all_goals exact .of_essence rfl

theorem regular_holdExpiry {i : SlotNo} (h : execHoldExpiry i s = .next t) : s.Regular t := by
  refine regular_unlessReset ?_ h
  split
  · exact .ite (fun _ => .of_essence (State.essence_endHold s i)) fun _ => .refl s
  · exact .refl s

theorem regular_idleExpiry (h : execIdleExpiry s = .next t) : s.Regular t := by
  refine regular_unlessReset (.ite (fun _ => ?_) fun _ => .refl s) h
  exact (State.Regular.of_essence rfl : s.Regular (s.updPoll fun p => { p with idle := none })).trans (State.regular_wake _)

theorem State.essence_openWindow (s : State) : s.openWindow.essence = s.essence := by
  unfold State.openWindow
  split <;> rfl

/-- Every row but three keeps memory, settings and names. -/
theorem regular_exec {c : Instr} (hc : ¬ Instr.freesSlots c) (h : exec c s = .next t) : s.Regular t := by
  cases c
  case takeChange => exact absurd trivial hc
  case resetRegistry => exact absurd trivial hc
  case pinReset => exact absurd trivial hc
  case enrol => exact regular_command regular_bodyEnrol h
  case retire => exact regular_command regular_bodyRetire h
  case suspend => exact regular_command regular_bodySuspend h
  case resume => exact regular_command regular_bodyResume h
  case setClass => exact regular_command regular_bodySetClass h
  case transfer => exact regular_command regular_bodyTransfer h
  case readStation => exact regular_command regular_bodyReadStation h
  case readIdentity => exact regular_command regular_bodyReadIdentity h
  case findAddress => exact regular_command regular_bodyFindAddress h
  case findIdentity => exact regular_command regular_bodyFindIdentity h
  case nextStation => exact regular_command regular_bodyNextStation h
  case setPolling => exact regular_command regular_bodySetPolling h
  case configureLine => exact regular_command regular_bodyConfigureLine h
  case readLineStatus => exact regular_command regular_bodyReadLineStatus h
  case startLine => exact regular_command regular_bodyStartLine h
  case stopLine => exact regular_command regular_bodyStopLine h
  case setHealth => exact regular_command regular_bodySetHealth h
  case clearHold => exact regular_command regular_bodyClearHold h
  case setAdmission => exact regular_command regular_bodySetAdmission h
  case writeFilter => exact regular_command regular_bodyWriteFilter h
  case readFilter => exact regular_command regular_bodyReadFilter h
  case readCandidate => exact regular_command regular_bodyReadCandidate h
  case approve => exact regular_command regular_bodyApprove h
  case reject => exact regular_command regular_bodyReject h
  case allocate => exact regular_command regular_bodyAllocate h
  case release => exact regular_command regular_bodyRelease h
  case send => exact regular_command regular_bodySend h
  case takeMessage => exact regular_command regular_bodyTakeMessage h
  case setReserve => exact regular_command regular_bodySetReserve h
  case badCommand => exact regular_badCommand h
  case interruptCauseWrite ch v =>
    refine regular_unlessReset (f := fun s => s.writeCause ch v) ?_ h
    exact .of_essence (State.essence_writeCause ..)
  case interruptEnableWrite ch v =>
    refine regular_unlessReset (f := fun s => s.writeEnable ch v) ?_ h
    exact State.regular_writeEnable ..
  case windowSelectWrite ch v =>
    refine regular_unlessReset (f := fun s => s.writeSelect ch v) ?_ h
    exact .of_essence (State.essence_setPort _ _ _ rfl)
  case windowDataRead => exact regular_windowDataRead h
  case windowDataWrite ch v =>
    refine regular_unlessReset (f := fun s => s.writeWindow ch v) ?_ h
    exact State.regular_writeWindow ..
  case registerWrite addr v =>
    refine regular_unlessReset (f := fun s => s.busWrite addr v) ?_ h
    exact State.regular_busWrite ..
  case frameSent =>
    exact regular_unlessReset (.ite (fun _ => .of_essence (State.essence_openWindow s)) fun _ => .refl s) h
  case dismissSent =>
    exact regular_unlessReset (.ite (fun _ => .of_essence (State.essence_dismissOutcome s)) fun _ => .refl s) h
  case replyReceived => exact regular_unlessReset (.ite (fun _ => s.regular_replyEnds ..) fun _ => .refl s) h
  case replyTimeout => exact regular_unlessReset (.ite (fun _ => s.regular_missByTimeout) fun _ => .refl s) h
  case joinFrame => exact regular_unlessReset (.ite (fun _ => s.regular_joinEnds ..) fun _ => .refl s) h
  case joinWindowExpiry =>
    refine regular_unlessReset (.ite (fun _ => .ite (fun _ => ?_) fun _ => ?_) fun _ => .refl s) h
    · exact .of_essence rfl
    · exact s.regular_endInvitation fun _ e => nomatch e
  case clockLoss => exact regular_clockLoss h
  case guardExpiry => exact regular_unlessReset (.ite (fun _ => s.regular_guardRunsOut) fun _ => .refl s) h
  case strayFrame => exact regular_strayFrame h
  case holdExpiry => exact regular_holdExpiry h
  case idleExpiry => exact regular_idleExpiry h
  case replyFirstSpaceBit =>
    refine regular_unlessReset (.ite (fun _ => .ite (fun _ => ?_) fun _ => .ite (fun _ => ?_) fun _ => .refl s)
      fun _ => .refl s) h
    · exact .of_essence rfl
    · exact .of_essence rfl

/-! ### Memory and settings -/

theorem tame_pinReset {level : Bool} (h : execPinReset level s = .next t) : s.Tame t := by
  obtain ⟨mem, settings, -⟩ := sound_reset
  cases level <;> cases h
  · exact ⟨id, id⟩
  · exact ⟨fun _ => mem, fun _ => settings⟩

theorem tame_exec {c : Instr} (h : exec c s = .next t) : s.Tame t := by
  by_cases hc : Instr.freesSlots c
  · cases c
    case takeChange => exact tame_command tame_bodyTakeChange h
    case resetRegistry => exact tame_command tame_bodyResetRegistry h
    case pinReset => exact tame_pinReset h
    all_goals exact absurd hc not_false
  · exact (regular_exec hc h).tame

/-- A step is a tick, or the front command carried out with the queue's rest. -/
theorem step_cases (h : step s = .next t) :
    s.pending = [] ∧ t = s.tick ∨ ∃ c rest, s.pending = c :: rest ∧ exec c { s with pending := rest } = .next t := by
  unfold step at h
  split at h
  · next e =>
    cases h
    exact .inl ⟨e, rfl⟩
  · next c rest e => exact .inr ⟨c, rest, e, h⟩

theorem tame_step (h : step s = .next t) : s.Tame t := by
  rcases step_cases h with ⟨-, rfl⟩ | ⟨c, rest, -, h⟩
  · exact (State.Regular.of_essence (State.essence_tick s)).tame
  · exact (State.Regular.of_essence rfl : s.Regular { s with pending := rest }).tame.trans (tame_exec h)

/-- Settles O56: every operation of a step keeps memory and settings. -/
theorem stepKeepsMemoryAndSettings : Obligations.StepKeepsMemoryAndSettings := by
  unfold Obligations.StepKeepsMemoryAndSettings
  exact ⟨fun s t wf h => (tame_step h).mem wf, fun s t ok h => (tame_step h).settings ok⟩

/-! ### Names -/

theorem State.taken_registry (s : State) (ch : Channel) : (s.taken ch).registry = s.registry := State.setPort_registry ..

theorem State.issued_registry (s : State) (ch : Channel) (code opts : Byte) :
    (s.issued ch code opts).registry = s.registry := by
  unfold State.issued State.writeCommand
  dsimp only
  split
  · rfl
  · split <;> exact State.setPort_registry ..

/-- A slot's name across a step: kept, but for a record that goes; or stepped, with a new record (R3). -/
def State.NameKept (s t : State) (i : SlotNo) : Prop :=
  ((t.slot i).gen = (s.slot i).gen ∧ (s.record i = none → t.record i = none)
      ∧ ∀ r r', s.record i = some r → t.record i = some r' → r'.identity = r.identity ∧ r'.address = r.address)
    ∨ (t.slot i).gen = (s.slot i).gen + 1 ∧ (t.record i).isSome = true

theorem State.Names.kept {i : SlotNo} (h : s.Names t i) : s.NameKept t i := by
  rcases h with e | ⟨-, -, gen, some⟩
  · refine .inl ⟨State.name_gen e, fun hs => ?_, fun r r' hr hr' => ?_⟩
    · have := State.name_isSome e
      rw [hs] at this
      exact Option.not_isSome_iff_eq_none.mp (by rw [this]; exact Bool.false_ne_true)
    · have both := congrArg Prod.snd e
      unfold State.name at both
      rw [hr, hr', Option.map_some, Option.map_some, Option.some.injEq, Prod.mk.injEq] at both
      exact both
  · exact .inr ⟨gen, some⟩

theorem State.freeSlots_freeSlot (s : State) (i : SlotNo) :
    (s.freeSlot i).registry.freeSlots = s.registry.freeSlots ++ [i] := rfl

/-- A slot that a TAKE CHANGE frees has no record in its generation, or a new one in the next (R24, R146). -/
theorem State.nameKept_freed {i : SlotNo} (nodup : s.registry.freeSlots.Nodup) (hi : i ∉ s.registry.freeSlots)
    {r : Record} (hr : s.record i = some r) (h : (s.freeSlot i).Regular t) (j : SlotNo) : s.NameKept t j := by
  have kept := h.named.names (by
    rw [State.freeSlots_freeSlot]
    exact nodup.append (List.nodup_singleton i) (by simpa using hi)) j
  have gen : ((s.freeSlot i).slot j).gen = (s.slot j).gen := State.gen_setRecord s i j none
  by_cases hj : i = j
  · subst hj
    have none' : (s.freeSlot i).record i = none := State.record_setRecord_same ..
    rcases kept.kept with ⟨g, n, -⟩ | ⟨g, n⟩
    · refine .inl ⟨g.trans gen, fun e => ?_, fun r r' _ hr' => ?_⟩
      · rw [hr] at e
        cases e
      · rw [n none'] at hr'
        cases hr'
    · exact .inr ⟨g.trans (by rw [gen]), n⟩
  · have same : (s.freeSlot i).record j = s.record j := (State.record_setRecord ..).trans (if_neg hj)
    have := kept.kept
    unfold State.NameKept at this ⊢
    rw [same, gen] at this
    exact this

theorem nameKept_takeChange {ch : Channel} {u : State} (nodup : u.registry.freeSlots.Nodup)
    (free : ∀ i, i ∈ u.registry.freeSlots ↔ (u.record i).isNone = true) (h : t = bodyTakeChange ch u) (i : SlotNo) :
    u.NameKept t i := by
  subst h
  unfold bodyTakeChange
  split
  · exact ((u.regular_fail _ _).named.names nodup i).kept
  · next j rest _ =>
    have taken : (u.setPort ch { u.port ch with changeList := rest }).essence = u.essence := State.essence_setPort _ _ _ rfl
    have record : ∀ k, (u.setPort ch { u.port ch with changeList := rest }).record k = u.record k := fun k =>
      State.setPort_record ..
    have slot : ∀ k, (u.setPort ch { u.port ch with changeList := rest }).slot k = u.slot k := fun k =>
      State.setPort_slot ..
    have free1 : (u.setPort ch { u.port ch with changeList := rest }).registry.freeSlots = u.registry.freeSlots :=
      congrArg Registry.freeSlots (State.setPort_registry ..)
    unfold State.takeEntry
    dsimp only
    split
    · exact (((State.Regular.of_essence taken).then (State.essence_fail ..)).named.names nodup i).kept
    · next r hr =>
      split
      · have tried := State.regular_retryDeferred ((u.setPort ch { u.port ch with changeList := rest }).freeSlot j)
        have freed : ∀ v, ((u.setPort ch { u.port ch with changeList := rest }).freeSlot j).Regular v → u.NameKept v i :=
          fun v hv => by
            have := State.nameKept_freed (by rw [free1]; exact nodup)
              (by rw [free1, free, ← record j, hr]; exact Bool.false_ne_true) hr hv i
            unfold State.NameKept at this
            rw [slot, record] at this
            exact this
        refine freed _ (State.Regular.complete ?_ _ _)
        split
        · exact tried
        · exact tried.trans (State.regular_wake _)
      · refine (State.Names.kept ?_)
        refine State.Named.names (State.Regular.named ?_) nodup i
        refine (State.Regular.of_essence taken).trans (regular_changed hr ?_ _ _)
        rfl

theorem nameKept_resetRegistry {ch : Channel} {u : State} (nodup : u.registry.freeSlots.Nodup)
    (h : t = bodyResetRegistry ch u) (i : SlotNo) : u.NameKept t i := by
  subst h
  cases ch with
  | ch1 => exact ((u.regular_fail .ch1 .notPermitted).named.names nodup i).kept
  | ch0 =>
    obtain ⟨gen, record, -, -⟩ := u.dropReception.resetBlocks_frame
    have final : (bodyResetRegistry .ch0 u).name i = u.dropReception.resetBlocks.name i :=
      congrFun (congrArg Essence.names ((State.essence_complete _ .ch0 .ok []).trans
        (State.essence_discardOther u.dropReception.resetBlocks))) i
    have dropped : (u.dropReception.slot i).gen = (u.slot i).gen := by
      rw [State.dropReception_frame]
      rfl
    have none' : (bodyResetRegistry .ch0 u).record i = none := by
      have := State.name_isSome final
      rw [record i] at this
      exact Option.not_isSome_iff_eq_none.mp (by rw [this]; exact Bool.false_ne_true)
    refine .inl ⟨(State.name_gen final).trans ((gen i).trans dropped), fun _ => none', fun r r' _ hr' => ?_⟩
    rw [none'] at hr'
    cases hr'

/-- Settles O60: rows that free no slot keep the names; TAKE CHANGE and RESET REGISTRY apart. -/
theorem handleNamesOneRecord : Obligations.HandleNamesOneRecord := by
  unfold Obligations.HandleNamesOneRecord
  intro s t sound running h i
  obtain ⟨-, -, -, ⟨-, ⟨nodup, free⟩, -⟩, -⟩ := sound
  show s.NameKept t i
  rcases step_cases h with ⟨-, rfl⟩ | ⟨c, rest, hp, h⟩
  · exact ((State.Regular.of_essence (State.essence_tick s)).named.names nodup i).kept
  have taken : ∀ {code opts ch} {body : Channel → State → State},
      (∀ u : State, u.registry.freeSlots.Nodup → (∀ i, i ∈ u.registry.freeSlots ↔ (u.record i).isNone = true) →
        u.NameKept (body ch u) i) → command code body ch opts { s with pending := rest } = .next t → s.NameKept t i :=
    fun {code opts ch body} hb h => by
      let s0 : State := { s with pending := rest }
      rcases command_cases h with rfl | ⟨-, rfl⟩ | ⟨-, -, rfl⟩
      · exact State.Names.kept (.inl rfl)
      · exact State.Names.kept (.inl (congrFun (congrArg Essence.names (State.essence_issued s0 ch code opts)) i))
      · have essence := State.essence_atTake s0 ch code opts
        have names : ((s0.issued ch code opts).taken ch).name = s.name := congrArg Essence.names essence
        have list : ((s0.issued ch code opts).taken ch).registry.freeSlots = s.registry.freeSlots :=
          congrArg Essence.freeSlots essence
        have registry : ((s0.issued ch code opts).taken ch).registry = s.registry :=
          (State.taken_registry ..).trans (State.issued_registry ..)
        have record : ∀ k, ((s0.issued ch code opts).taken ch).record k = s.record k := fun k =>
          congrArg (fun g : Registry => g.slots[k].record) registry
        have slot : ∀ k, ((s0.issued ch code opts).taken ch).slot k = s.slot k := fun k =>
          congrArg (fun g : Registry => g.slots[k]) registry
        have kept := hb _ (by rw [list]; exact nodup) (fun k => by rw [list, record]; exact free k)
        unfold State.NameKept at kept ⊢
        rw [slot, record] at kept
        exact kept
  by_cases hc : Instr.freesSlots c
  · cases c
    case takeChange => exact taken (fun u n f => nameKept_takeChange n f rfl i) h
    case resetRegistry => exact taken (fun u n _ => nameKept_resetRegistry n rfl i) h
    case pinReset => exact absurd hp (running _ _)
    all_goals exact absurd hc not_false
  · exact ((regular_exec hc h).named.names nodup i).kept

end Sys2Proof.Machine
end

section
/-! What every event keeps of the records, the registry's collections, the exchange's hold and the buffers, in parts that
each read little of the state: the sound states said again. -/

namespace Sys2Proof.Machine

/-! ### Lists that follow a function -/

/-- A list holds exactly the arguments at which a function's value has a property, each once. -/
def Tracks {α β : Type} (f : α → β) (p : β → Prop) (l : List α) : Prop := l.Nodup ∧ ∀ a, a ∈ l ↔ p (f a)

section
variable {α β : Type} [DecidableEq α] {f : α → β} {p : β → Prop} {l : List α} {a : α} {v : β}

theorem Tracks.keep (h : Tracks f p l) (e : p v ↔ p (f a)) : Tracks (Function.update f a v) p l := by
  refine ⟨h.1, fun b => ?_⟩
  by_cases hb : b = a
  · rw [hb, Function.update_self, h.2, e]
  · rw [Function.update_of_ne hb, h.2]

theorem Tracks.drop (h : Tracks f p l) (e : ¬ p v) : Tracks (Function.update f a v) p (l.erase a) := by
  refine ⟨h.1.erase a, fun b => ?_⟩
  rw [h.1.mem_erase_iff, h.2]
  by_cases hb : b = a
  · simp [hb, e]
  · simp [hb]

theorem Tracks.dropHead (h : Tracks f p (a :: l)) (e : ¬ p v) : Tracks (Function.update f a v) p l := by
  simpa using h.drop (a := a) e

theorem Tracks.join (h : Tracks f p l) (new : ¬ p (f a)) (e : p v) : Tracks (Function.update f a v) p (l ++ [a]) := by
  have out : a ∉ l := fun ha => new ((h.2 a).mp ha)
  refine ⟨h.1.append (List.nodup_singleton a) (List.disjoint_singleton.mpr out), fun b => ?_⟩
  rw [List.mem_append, List.mem_singleton, h.2]
  by_cases hb : b = a
  · simp [hb, e]
  · simp [hb]

/-- A member that goes to the tail keeps the list's members. -/
theorem Tracks.requeue (h : Tracks f p l) (e : p v) :
    Tracks (Function.update f a v) p (l.erase a ++ [a]) := by
  refine ⟨(h.1.erase a).append (List.nodup_singleton a) (List.disjoint_singleton.mpr h.1.not_mem_erase), fun b => ?_⟩
  rw [List.mem_append, List.mem_singleton, h.1.mem_erase_iff, h.2]
  by_cases hb : b = a
  · simp [hb, e]
  · simp [hb]

omit [DecidableEq α] in
theorem Tracks.congr {γ : Type} {g : α → γ} {q : γ → Prop} (h : Tracks f p l) (e : ∀ b, q (g b) ↔ p (f b)) :
    Tracks g q l :=
  ⟨h.1, fun b => (h.2 b).trans (e b).symm⟩

omit [DecidableEq α] in
/-- A member at which the property fails is none. -/
theorem Tracks.not_mem (h : Tracks f p l) (e : ¬ p (f a)) : a ∉ l := fun ha => e ((h.2 a).mp ha)

/-- The function with one value at every argument of a list. -/
def overwrite (f : α → β) (as : List α) (v : β) (b : α) : β := if b ∈ as then v else f b

theorem Tracks.dropAll {as l' : List α} (h : Tracks f p l) (e : ¬ p v) (nodup : l'.Nodup)
    (mem : ∀ b, b ∈ l' ↔ b ∈ l ∧ b ∉ as) : Tracks (overwrite f as v) p l' := by
  refine ⟨nodup, fun b => ?_⟩
  rw [mem, h.2, overwrite]
  by_cases hb : b ∈ as
  · simp [hb, e]
  · simp [hb]

theorem Tracks.keepAll {as : List α} (h : Tracks f p l) (e : ¬ p v) (old : ∀ b ∈ as, ¬ p (f b)) :
    Tracks (overwrite f as v) p l :=
  h.dropAll e h.1 fun b => ⟨fun hb => ⟨hb, fun ha => old b ha ((h.2 b).mp hb)⟩, fun hb => hb.1⟩

theorem Tracks.joinAll {as : List α} (h : Tracks f p l) (e : p v) (nodup : as.Nodup) (new : ∀ b ∈ as, ¬ p (f b)) :
    Tracks (overwrite f as v) p (l ++ as) := by
  refine ⟨h.1.append nodup fun b hb ha => new b ha ((h.2 b).mp hb), fun b => ?_⟩
  rw [List.mem_append, h.2, overwrite]
  by_cases hb : b ∈ as
  · simp [hb, e]
  · simp [hb]

end

/-! ### Where the registry has the records -/

/-- The lists that a record's state puts it on, and the address and identity it counts under (R7 to R11, R38). -/
structure Standing where
  member : Bool
  admitting : Bool
  dismissing : Bool
  counted : Option (Byte × List Byte)

def Record.standing (r : Record) : Standing where
  member := r.state.isMember
  admitting := r.state == .admitting
  dismissing := r.state == .retiring && r.dismissPending == some true
  counted := if r.state.counts then some (r.address, r.identity) else none

def State.standing (s : State) (i : SlotNo) : Option Standing := (s.record i).map Record.standing

/-- The address and identity that a slot's record counts under. -/
def State.counted (s : State) (i : SlotNo) : Option (Byte × List Byte) := (s.standing i).bind Standing.counted

/-- The identities on the Candidate List. -/
def State.identities (s : State) : List (List Byte) := s.adm.candidates.map Candidate.identity

/-- A record whose standing has a mark. -/
def Marked (f : Standing → Bool) (o : Option Standing) : Prop := o.any f = true

/-- The Ring, the Free Slot List and the two queues hold the records they should (R8 to R10, R38, R41). -/
structure State.Queues (s : State) : Prop where
  ring : Tracks s.standing (Marked Standing.member) s.poll.ring
  cursor : s.poll.cursor ≤ s.poll.ring.length
  free : Tracks s.standing (· = none) s.registry.freeSlots
  admits : Tracks s.standing (Marked Standing.admitting) s.registry.admitQueue
  dismiss : Tracks s.standing (Marked Standing.dismissing) s.registry.dismissQueue

/-- The Address Index and the Candidate List agree with the records: each address, and each identity, names one (R7, R11,
R141). -/
structure State.Naming (s : State) : Prop where
  index : ∀ a i, s.lookup a = some i ↔ ∃ id, s.counted i = some (a, id)
  identity : ∀ i j a b id, s.counted i = some (a, id) → s.counted j = some (b, id) → i = j
  candidates : s.identities.Nodup
  apart : ∀ id ∈ s.identities, ∀ i a, s.counted i ≠ some (a, id)

/-- A record stands on a channel's Change List (R178). -/
def Listed (ch : Channel) (o : Option Record) : Prop := ∃ r, o = some r ∧ r.owner = ch ∧ r.reasons ≠ 0

/-- The Change Lists agree with the reasons of the records. -/
def State.Posted (s : State) : Prop := ∀ ch, Tracks s.record (Listed ch) (s.port ch).changeList

/-! ### Where the buffers are -/

def State.placeOf (s : State) (b : BufNo) : Place := (s.buffer b).place

/-- The outbound queue of a slot's record. -/
def State.outq (s : State) (i : SlotNo) : List BufNo := ((s.record i).map Record.outq).getD []

/-- The buffer that the Current Exchange has reserved (R161). -/
def State.reservedBuffer (s : State) : Option BufNo := s.trunk.current.bind Exchange.reserved

def Place.isDelivered : Place → Bool
  | .delivered _ _ => true
  | .free | .held _ | .queued _ | .reserved => false

/-- Each buffer is in one place, and each list of buffers holds those in its place (R156, R157, R159 to R161). -/
structure State.Stored (s : State) : Prop where
  free : Tracks s.placeOf (· = .free) s.pool.free
  queued : ∀ i, Tracks s.placeOf (· = .queued i) (s.outq i)
  delivered : Tracks s.placeOf (fun p => p.isDelivered = true) (s.port0.deliveryQueue ++ s.port1.deliveryQueue)
  reserved : Tracks s.placeOf (· = .reserved) s.reservedBuffer.toList
  length : ∀ b, (s.buffer b).length ≤ 120

/-! ### The line and the Current Exchange -/

/-- The Current Exchange holds a record in a state its kind allows, with the buffers its kind carries (R12, R80, R84 to
R87). -/
inductive State.Target (s : State) (x : Exchange) : Prop
  | invite (kind : x.kind = .invite) (released : x.released = x)
  | poll (h : Handle) (r : Record) (kind : x.kind = .poll) (target : x.target = some h) (handle : h = s.handle h.slot)
      (record : s.record h.slot = some r) (state : r.state.isMember = true ∨ r.state = .retiring)
      (sent : x.sentNS.isSome = true) (outbound : x.outbound = none)
  | data (h : Handle) (r : Record) (b : BufNo) (kind : x.kind = .data) (target : x.target = some h)
      (handle : h = s.handle h.slot) (record : s.record h.slot = some r)
      (state : r.state.isMember = true ∨ r.state = .retiring) (sent : x.sentNS.isSome = true)
      (outbound : x.outbound = some b) (head : r.outq.head? = some b)
  | admits (h : Handle) (r : Record) (kind : x.kind = .admitExchange) (target : x.target = some h)
      (handle : h = s.handle h.slot) (record : s.record h.slot = some r)
      (state : r.state = .admitting ∨ r.state = .retiring) (sent : x.sentNS = none) (outbound : x.outbound = none)
      (reserved : x.reserved = none)
  | dismiss (h : Handle) (kind : x.kind = .dismiss) (target : x.target = some h) (handle : h = s.handle h.slot)
      (head : s.registry.dismissQueue.head? = some h.slot) (sent : x.sentNS = none) (outbound : x.outbound = none)
      (reserved : x.reserved = none)

/-- The line state and the Current Exchange agree (R79 to R81). -/
inductive State.Phase (s : State) : Prop
  | rest (line : s.trunk.line = .off ∨ s.trunk.line = .idle ∨ s.trunk.line = .fault) (none : s.trunk.current = none)
  | guard (line : s.trunk.line = .guard) (x : Exchange) (current : s.trunk.current = some x)
      (released : x.released = x)
  | live (x : Exchange) (line : s.trunk.line = .sending ∨ s.trunk.line = .awaiting ∧ x.kind ≠ .dismiss)
      (current : s.trunk.current = some x) (target : s.Target x)

/-- The receiver hunts in IDLE, GUARD and FAULT alone (R67). -/
def State.HuntOk (s : State) : Prop :=
  s.trunk.line = .off ∨ s.trunk.line = .sending ∨ s.trunk.line = .awaiting → s.trunk.hunt = Hunt.start

/-- A RETIRING record waits for its dismissal or is held, and keeps no buffer but a carried one (R19, R22). -/
def State.Held (s : State) : Prop :=
  ∀ i r, s.record i = some r → r.state = .retiring →
    (r.dismissPending = some true ∨ s.holds i = true) ∧ r.outq = (s.carried i).toList

/-- The records are as R2 allows them, and every collection that names records agrees with them: what holds between the
operations of one event as well as between events. -/
structure State.Registered (s : State) : Prop where
  records : s.RecordsOk
  queues : s.Queues
  naming : s.Naming
  posted : s.Posted

/-- What holds between events, but for the settings, the memory and the drain. -/
structure State.Sane (s : State) : Prop where
  registered : s.Registered
  stored : s.Stored
  held : s.Held
  phase : s.Phase
  hunt : s.HuntOk

section
variable {s t : State} {i : SlotNo} {r : Record}

theorem State.standing_some (h : s.record i = some r) : s.standing i = some r.standing := by
  rw [State.standing, h]
  rfl

theorem State.standing_eq_none : s.standing i = none ↔ s.record i = none := Option.map_eq_none_iff

theorem State.counted_some (h : s.record i = some r) :
    s.counted i = if r.state.counts = true then some (r.address, r.identity) else none := by
  rw [State.counted, State.standing_some h]
  rfl

theorem State.counted_iff {a : Byte} {id : List Byte} :
    s.counted i = some (a, id) ↔ ∃ r, s.record i = some r ∧ r.state.counts = true ∧ r.address = a ∧ r.identity = id := by
  cases h : s.record i with
  | none =>
    have : s.counted i = none := by rw [State.counted, State.standing, h]; rfl
    simp [this]
  | some r =>
    rw [State.counted_some h]
    by_cases hc : r.state.counts = true <;> simp [hc]

theorem State.outq_some (h : s.record i = some r) : s.outq i = r.outq := by
  rw [State.outq, h]
  rfl

theorem State.marked_standing (f : Standing → Bool) (i : SlotNo) :
    Marked f (s.standing i) ↔ s.recordIs i (fun r => f r.standing) = true := by
  unfold Marked State.standing State.recordIs
  cases s.record i <;> rfl

theorem State.listed_record (ch : Channel) (i : SlotNo) :
    Listed ch (s.record i) ↔ s.recordIs i (fun r => r.owner == ch && r.reasons != 0) = true := by
  unfold Listed State.recordIs
  cases s.record i <;> simp

theorem State.findIdentity_eq_none {identity : List Byte} :
    s.findIdentity identity = none ↔ ∀ i a, s.counted i ≠ some (a, identity) := by
  rw [State.findIdentity_eq, allSlots_find?_eq_none]
  refine forall_congr' fun i => ?_
  unfold State.recordIs
  cases hr : s.record i with
  | none => simp [State.counted_iff, hr]
  | some r => simp [State.counted_iff, hr]

theorem State.changeListOk_iff (ch : Channel) :
    s.ChangeListOk ch ↔ Tracks s.record (Listed ch) (s.port ch).changeList :=
  and_congr Iff.rfl (forall_congr' fun i => iff_congr Iff.rfl (State.listed_record ch i).symm)

theorem State.naming_iff : s.Naming ↔
    (∀ (a : Byte) (i : SlotNo), s.lookup a = some i ↔
      s.recordIs i (fun r => r.state.counts && r.address == a) = true)
    ∧ (∀ i j : SlotNo,
      s.recordIs i (fun r => r.state.counts
        && s.recordIs j (fun q => q.state.counts && q.identity == r.identity)) = true → i = j)
    ∧ (s.adm.candidates.map Candidate.identity).Nodup ∧ ∀ c ∈ s.adm.candidates, s.findIdentity c.identity = none := by
  have index : ∀ (a : Byte) (i : SlotNo), s.recordIs i (fun r => r.state.counts && r.address == a) = true ↔
      ∃ id, s.counted i = some (a, id) := fun a i => by
    unfold State.recordIs
    cases hr : s.record i <;> simp [State.counted_iff, hr]
  have identity : ∀ i j : SlotNo, s.recordIs i (fun r => r.state.counts
      && s.recordIs j (fun q => q.state.counts && q.identity == r.identity)) = true ↔
      ∃ a b id, s.counted i = some (a, id) ∧ s.counted j = some (b, id) := fun i j => by
    unfold State.recordIs
    cases hi : s.record i with
    | none => simp [State.counted_iff, hi]
    | some r =>
      cases hj : s.record j with
      | none => simp [State.counted_iff, hi, hj]
      | some q =>
        simp only [State.counted_iff, hi, hj, Option.any_some, Bool.and_eq_true, beq_iff_eq, Option.some.injEq,
          exists_eq_left']
        exact ⟨fun ⟨hr, hq, e⟩ => ⟨_, _, _, ⟨hr, rfl, rfl⟩, hq, rfl, e⟩,
          fun ⟨_, _, _, ⟨hr, _, e⟩, hq, _, e'⟩ => ⟨hr, hq, e'.trans e.symm⟩⟩
  constructor
  · intro h
    refine ⟨fun a i => (h.index a i).trans (index a i).symm, fun i j hij => ?_, h.candidates,
      fun c hc => State.findIdentity_eq_none.mpr (h.apart c.identity (List.mem_map_of_mem hc))⟩
    obtain ⟨a, b, id, hi, hj⟩ := (identity i j).mp hij
    exact h.identity i j a b id hi hj
  · intro ⟨hindex, hidentity, candidates, apart⟩
    refine ⟨fun a i => (hindex a i).trans (index a i), fun i j a b id hi hj =>
      hidentity i j ((identity i j).mpr ⟨a, b, id, hi, hj⟩), candidates, fun id hid => ?_⟩
    obtain ⟨c, hc, rfl⟩ := List.mem_map.mp hid
    exact State.findIdentity_eq_none.mp (apart c hc)

/-- The collections of the registry, as the parts say them. -/
theorem State.registryOk_iff : s.RegistryOk ↔ s.Queues ∧ s.Naming ∧ s.Posted := by
  have free : ∀ i, (s.record i).isNone = true ↔ s.standing i = none := fun i => by
    rw [Option.isNone_iff_eq_none, State.standing_eq_none]
  constructor
  · intro ⟨⟨ringNodup, ringMem, cursor⟩, ⟨freeNodup, freeMem⟩, admits, dismiss, index, identity, candidates, change0,
      change1⟩
    refine ⟨⟨⟨ringNodup, fun i => (ringMem i).trans (State.marked_standing Standing.member i).symm⟩, cursor,
      ⟨freeNodup, fun i => (freeMem i).trans (free i)⟩,
      ⟨admits.1, fun i => (admits.2 i).trans (State.marked_standing Standing.admitting i).symm⟩,
      ⟨dismiss.1, fun i => (dismiss.2 i).trans (State.marked_standing Standing.dismissing i).symm⟩⟩,
      State.naming_iff.mpr ⟨index, identity, candidates⟩, fun ch => ?_⟩
    cases ch
    · exact (State.changeListOk_iff .ch0).mp change0
    · exact (State.changeListOk_iff .ch1).mp change1
  · intro ⟨q, n, posted⟩
    obtain ⟨index, identity, candidates⟩ := State.naming_iff.mp n
    exact ⟨⟨q.ring.1, fun i => (q.ring.2 i).trans (State.marked_standing Standing.member i), q.cursor⟩,
      ⟨q.free.1, fun i => (q.free.2 i).trans (free i).symm⟩,
      ⟨q.admits.1, fun i => (q.admits.2 i).trans (State.marked_standing Standing.admitting i)⟩,
      ⟨q.dismiss.1, fun i => (q.dismiss.2 i).trans (State.marked_standing Standing.dismissing i)⟩, index, identity,
      candidates, (State.changeListOk_iff .ch0).mpr (posted .ch0), (State.changeListOk_iff .ch1).mpr (posted .ch1)⟩

/-- The third part of what the exchange keeps. -/
theorem State.held_iff : s.Held ↔ ∀ i, (s.record i).all (fun r => r.state != .retiring
    || ((r.dismissPending == some true || s.holds i) && (r.outq == (s.carried i).toList))) = true := by
  refine forall_congr' fun i => ?_
  cases s.record i with
  | none => simp
  | some r => by_cases hs : r.state = .retiring <;> simp [hs]

theorem Exchange.released_eq_iff (x : Exchange) : x.released = x ↔
    (x.target.isNone && x.sentNS.isNone && x.outbound.isNone && x.reserved.isNone) = true := by
  obtain ⟨kind, target, ns, outbound, reserved⟩ := x
  simp only [Exchange.released, Exchange.mk.injEq, Bool.and_eq_true, Option.isNone_iff_eq_none]
  grind

theorem State.recordIs_iff {p : Record → Bool} : s.recordIs i p = true ↔ ∃ r, s.record i = some r ∧ p r = true := by
  unfold State.recordIs
  rw [Option.any_eq_true]

theorem State.targetOk_iff (x : Exchange) : s.targetOk x = true ↔ s.Target x := by
  constructor
  · intro ok
    unfold State.targetOk at ok
    split at ok
    · next hk ht =>
      exact .invite hk ((Exchange.released_eq_iff x).mpr (by simpa [ht] using ok))
    · next h hk ht =>
      simp only [Bool.and_eq_true, decide_eq_true_eq, State.recordIs_iff, Bool.or_eq_true, beq_iff_eq,
        Option.isNone_iff_eq_none] at ok
      obtain ⟨⟨⟨handle, r, record, state⟩, sent⟩, outbound⟩ := ok
      exact .poll h r hk ht handle record state sent outbound
    · next h hk ht =>
      simp only [Bool.and_eq_true, decide_eq_true_eq, State.recordIs_iff, Bool.or_eq_true, beq_iff_eq] at ok
      obtain ⟨⟨handle, r, record, ⟨state, some⟩, head⟩, sent⟩ := ok
      obtain ⟨b, hb⟩ := Option.isSome_iff_exists.mp some
      exact .data h r b hk ht handle record state sent hb (head.trans hb)
    · next h hk ht =>
      simp only [Bool.and_eq_true, decide_eq_true_eq, State.recordIs_iff, Bool.or_eq_true, beq_iff_eq,
        Option.isNone_iff_eq_none] at ok
      obtain ⟨⟨⟨⟨handle, r, record, state⟩, sent⟩, outbound⟩, reserved⟩ := ok
      exact .admits h r hk ht handle record state sent outbound reserved
    · next h hk ht =>
      simp only [Bool.and_eq_true, decide_eq_true_eq, Option.isNone_iff_eq_none] at ok
      obtain ⟨⟨⟨⟨handle, head⟩, sent⟩, outbound⟩, reserved⟩ := ok
      exact .dismiss h hk ht handle head sent outbound reserved
    · cases ok
  · intro ok
    unfold State.targetOk
    cases ok with
    | invite kind released =>
      have none := (Exchange.released_eq_iff x).mp released
      simp only [Bool.and_eq_true, Option.isNone_iff_eq_none] at none
      simp [kind, none]
    | poll h r kind target handle record state sent outbound =>
      rw [kind, target]
      simp only [Bool.and_eq_true, decide_eq_true_eq, State.recordIs_iff, Bool.or_eq_true, beq_iff_eq,
        Option.isNone_iff_eq_none]
      exact ⟨⟨⟨handle, r, record, state⟩, sent⟩, outbound⟩
    | data h r b kind target handle record state sent outbound head =>
      rw [kind, target]
      simp only [Bool.and_eq_true, decide_eq_true_eq, State.recordIs_iff, Bool.or_eq_true, beq_iff_eq]
      exact ⟨⟨handle, r, record, ⟨state, by rw [outbound]; rfl⟩, head.trans outbound.symm⟩, sent⟩
    | admits h r kind target handle record state sent outbound reserved =>
      rw [kind, target]
      simp only [Bool.and_eq_true, decide_eq_true_eq, State.recordIs_iff, Bool.or_eq_true, beq_iff_eq,
        Option.isNone_iff_eq_none]
      exact ⟨⟨⟨⟨handle, r, record, state⟩, sent⟩, outbound⟩, reserved⟩
    | dismiss h kind target handle head sent outbound reserved =>
      rw [kind, target]
      simp only [Bool.and_eq_true, decide_eq_true_eq, Option.isNone_iff_eq_none]
      exact ⟨⟨⟨⟨handle, head⟩, sent⟩, outbound⟩, reserved⟩

theorem State.exchangeOk_iff : s.ExchangeOk ↔ s.Phase ∧ s.HuntOk ∧ s.Held := by
  refine Iff.trans (and_congr ?_ (and_congr ?_ State.held_iff.symm)) Iff.rfl
  · constructor
    · intro h
      cases hx : s.trunk.current with
      | none =>
        refine .rest ?_ hx
        cases hl : s.trunk.line <;> simp [hl, hx] at h ⊢
      | some x =>
        cases hl : s.trunk.line with
        | off | idle | fault => simp [hl, hx] at h
        | sending =>
          rw [hl, hx] at h
          exact .live x (.inl hl) hx ((State.targetOk_iff x).mp h)
        | awaiting =>
          rw [hl, hx] at h
          obtain ⟨target, kind⟩ := (Bool.and_eq_true _ _).mp h
          exact .live x (.inr ⟨hl, of_decide_eq_true kind⟩) hx ((State.targetOk_iff x).mp target)
        | guard =>
          rw [hl, hx] at h
          exact .guard hl x hx ((Exchange.released_eq_iff x).mpr h)
    · intro h
      cases h with
      | rest line none => rcases line with line | line | line <;> rw [line, none]
      | guard line x current released => rw [line, current]; exact (Exchange.released_eq_iff x).mp released
      | live x line current target =>
        rcases line with line | ⟨line, kind⟩ <;> rw [line, current]
        · exact (State.targetOk_iff x).mpr target
        · simp [(State.targetOk_iff x).mpr target, kind]
  · unfold State.HuntOk
    cases s.trunk.line <;> simp

theorem State.buffersOk_iff : s.BuffersOk ↔ s.Stored := by
  have reserved : ∀ b, (s.trunk.current.any fun x => x.reserved == some b) = true ↔ b ∈ s.reservedBuffer.toList :=
    fun b => by
      unfold State.reservedBuffer
      cases s.trunk.current <;> simp
  have queued : ∀ i, ((s.record i).all (fun r => decide r.outq.Nodup) = true ↔ (s.outq i).Nodup)
      ∧ ∀ b, s.recordIs i (fun r => decide (b ∈ r.outq)) = true ↔ b ∈ s.outq i := fun i => by
    unfold State.outq State.recordIs
    cases s.record i <;> simp
  constructor
  · intro ⟨free, nodup, mem, dnodup, dmem, hreserved, length⟩
    refine ⟨free, fun i => ⟨(queued i).1.mp (nodup i), fun b => ((queued i).2 b).symm.trans (mem i b)⟩,
      ⟨dnodup, fun b => (dmem b).trans ?_⟩, ⟨?_, fun b => (reserved b).symm.trans (hreserved b)⟩, length⟩
    · unfold State.placeOf
      cases (s.buffer b).place <;> exact Iff.rfl
    · cases s.reservedBuffer <;> simp
  · intro h
    refine ⟨h.free, fun i => (queued i).1.mpr (h.queued i).1, fun i b => ((queued i).2 b).trans ((h.queued i).2 b),
      h.delivered.1, fun b => (h.delivered.2 b).trans ?_, fun b => (reserved b).trans (h.reserved.2 b), h.length⟩
    unfold State.placeOf
    cases (s.buffer b).place <;> exact Iff.rfl

/-- A sound state, as its parts say it. -/
theorem State.Sound.sane (h : s.Sound) : s.Sane := by
  obtain ⟨-, -, records, registry, exchange, buffers, -⟩ := h
  obtain ⟨queues, naming, posted⟩ := State.registryOk_iff.mp registry
  obtain ⟨phase, hunt, held⟩ := State.exchangeOk_iff.mp exchange
  exact ⟨⟨records, queues, naming, posted⟩, State.buffersOk_iff.mp buffers, held, phase, hunt⟩

/-- The parts give back the record's, the registry's, the exchange's and the buffers' part of a sound state. -/
theorem State.Sane.parts (h : s.Sane) : s.RecordsOk ∧ s.RegistryOk ∧ s.ExchangeOk ∧ s.BuffersOk :=
  ⟨h.registered.records,
    State.registryOk_iff.mpr ⟨h.registered.queues, h.registered.naming, h.registered.posted⟩,
    State.exchangeOk_iff.mpr ⟨h.phase, h.hunt, h.held⟩, State.buffersOk_iff.mpr h.stored⟩

end

end Sys2Proof.Machine
end

section
/-! The parts of a sound state under the changes that operations make: what each part reads, one record changed, and
buffers given back. -/

namespace Sys2Proof.Machine

variable {s t : State} {i : SlotNo} {r r' : Record} {o : Option Record}

/-! ### What each part reads -/

/-- What the records and the collections of the registry are read from. -/
def State.roll (s : State) : Registry × List SlotNo × Nat × List (List Byte) × (Channel → List SlotNo) :=
  (s.registry, s.poll.ring, s.poll.cursor, s.identities, fun ch => (s.port ch).changeList)

/-- What the buffers' places are read from. -/
def State.store (s : State) : (SlotNo → List BufNo) × Option Exchange × Vector Buffer 32 × List BufNo
    × (Channel → List BufNo) :=
  (s.outq, s.trunk.current, s.pool.buffers, s.pool.free, fun ch => (s.port ch).deliveryQueue)

/-- What a sound state is read from, but for the settings, the memory and the drain. -/
def State.view (s : State) : (Registry × List SlotNo × Nat × List (List Byte) × (Channel → List SlotNo))
    × ((SlotNo → List BufNo) × Option Exchange × Vector Buffer 32 × List BufNo × (Channel → List BufNo))
    × LineState × Hunt :=
  (s.roll, s.store, s.trunk.line, s.trunk.hunt)

theorem State.record_of_registry (h : t.registry = s.registry) : t.record = s.record :=
  funext fun i => congrArg (fun g : Registry => g.slots[i].record) h

theorem State.lookup_of_registry (h : t.registry = s.registry) : t.lookup = s.lookup :=
  funext fun a => congrArg (fun g : Registry => g.addressIndex[a.toFin]) h

theorem State.handle_of_registry (h : t.registry = s.registry) : t.handle = s.handle :=
  funext fun i => congrArg (fun g : Registry => ({ slot := i, gen := g.slots[i].gen } : Handle)) h

theorem State.standing_of_record (h : t.record = s.record) : t.standing = s.standing :=
  funext fun i => by rw [State.standing, State.standing, h]

theorem State.outq_of_record (h : t.record = s.record) : t.outq = s.outq :=
  funext fun i => by rw [State.outq, State.outq, h]

theorem State.counted_of_standing (h : t.standing = s.standing) : t.counted = s.counted :=
  funext fun i => by rw [State.counted, State.counted, h]

theorem State.standing_update (h : t.record = Function.update s.record i o) :
    t.standing = Function.update s.standing i (o.map Record.standing) := by
  funext j
  rw [State.standing, h]
  by_cases hj : j = i
  · rw [hj, Function.update_self, Function.update_self]
  · rw [Function.update_of_ne hj, Function.update_of_ne hj, State.standing]

theorem State.outq_update (h : t.record = Function.update s.record i o) :
    t.outq = Function.update s.outq i ((o.map Record.outq).getD []) := by
  funext j
  rw [State.outq, h]
  by_cases hj : j = i
  · rw [hj, Function.update_self, Function.update_self]
  · rw [Function.update_of_ne hj, Function.update_of_ne hj, State.outq]

theorem State.counted_update {o : Option Standing} (h : t.standing = Function.update s.standing i o) :
    t.counted = Function.update s.counted i (o.bind Standing.counted) := by
  funext j
  rw [State.counted, h]
  by_cases hj : j = i
  · rw [hj, Function.update_self, Function.update_self]
  · rw [Function.update_of_ne hj, Function.update_of_ne hj, State.counted]

/-- A changed record that stands as before leaves every standing as it was. -/
theorem State.standing_same (h : t.record = Function.update s.record i (some r')) (hr : s.record i = some r)
    (e : r'.standing = r.standing) : t.standing = s.standing := by
  rw [State.standing_update h, Option.map_some, e, ← State.standing_some hr, Function.update_eq_self]

/-! ### The parts where nothing they read changes -/

theorem State.Queues.congr (h : s.Queues) (standing : t.standing = s.standing) (ring : t.poll.ring = s.poll.ring)
    (cursor : t.poll.cursor ≤ t.poll.ring.length) (free : t.registry.freeSlots = s.registry.freeSlots)
    (admits : t.registry.admitQueue = s.registry.admitQueue)
    (dismiss : t.registry.dismissQueue = s.registry.dismissQueue) : t.Queues where
  ring := by rw [standing, ring]; exact h.ring
  cursor := cursor
  free := by rw [standing, free]; exact h.free
  admits := by rw [standing, admits]; exact h.admits
  dismiss := by rw [standing, dismiss]; exact h.dismiss

/-- Candidates may leave the Candidate List. -/
theorem State.Naming.congr (h : s.Naming) (counted : t.counted = s.counted) (lookup : t.lookup = s.lookup)
    (candidates : t.identities.Sublist s.identities) : t.Naming where
  index := by rw [counted, lookup]; exact h.index
  identity := by rw [counted]; exact h.identity
  candidates := h.candidates.sublist candidates
  apart := by
    rw [counted]
    exact fun id hid => h.apart id (candidates.subset hid)

theorem State.Posted.congr (h : s.Posted) (listed : ∀ ch i, Listed ch (t.record i) ↔ Listed ch (s.record i))
    (lists : ∀ ch, (t.port ch).changeList = (s.port ch).changeList) : t.Posted := fun ch => by
  rw [lists]
  exact (h ch).congr (listed ch)

theorem State.Registered.of_roll (ok : s.Registered) (h : t.roll = s.roll) : t.Registered := by
  simp only [State.roll, Prod.mk.injEq] at h
  obtain ⟨registry, ring, cursor, identities, lists⟩ := h
  have record := State.record_of_registry registry
  have standing := State.standing_of_record record
  refine ⟨?_, ok.queues.congr standing ring ?_ (congrArg Registry.freeSlots registry)
    (congrArg Registry.admitQueue registry) (congrArg Registry.dismissQueue registry),
    ok.naming.congr (State.counted_of_standing standing) (State.lookup_of_registry registry) ?_,
    ok.posted.congr (fun ch i => by rw [record]) (fun ch => congrFun lists ch)⟩
  · rw [State.RecordsOk, record]
    exact ok.records
  · rw [cursor, ring]
    exact ok.queues.cursor
  · rw [identities]

theorem State.Stored.of_store (ok : s.Stored) (h : t.store = s.store) : t.Stored := by
  simp only [State.store, Prod.mk.injEq] at h
  obtain ⟨outq, current, buffers, free, queues⟩ := h
  have buffer : t.buffer = s.buffer := funext fun b => by rw [State.buffer, buffers]; rfl
  have place : t.placeOf = s.placeOf := funext fun b => by rw [State.placeOf, buffer]; rfl
  refine ⟨?_, ?_, ?_, ?_, ?_⟩
  · rw [place, free]
    exact ok.free
  · rw [place, outq]
    exact ok.queued
  · rw [place, show t.port0.deliveryQueue = _ from congrFun queues .ch0,
      show t.port1.deliveryQueue = _ from congrFun queues .ch1]
    exact ok.delivered
  · rw [place, State.reservedBuffer, current]
    exact ok.reserved
  · rw [buffer]
    exact ok.length

theorem State.holds_of_current (h : t.trunk.current = s.trunk.current) : t.holds = s.holds :=
  funext fun i => by rw [State.holds, State.holds, h]

theorem State.carried_of_current (h : t.trunk.current = s.trunk.current) : t.carried = s.carried :=
  funext fun i => by rw [State.carried, State.carried, h, State.holds_of_current h]

theorem State.Held.congr (ok : s.Held) (record : t.record = s.record) (current : t.trunk.current = s.trunk.current) :
    t.Held := by
  rw [State.Held, record, State.holds_of_current current, State.carried_of_current current]
  exact ok

theorem State.targetOk_of_registry (h : t.registry = s.registry) : t.targetOk = s.targetOk := by
  funext x
  have isRec : t.recordIs = s.recordIs := funext fun i => by
    unfold State.recordIs
    rw [State.record_of_registry h]
  rw [State.targetOk, State.targetOk, State.handle_of_registry h, isRec, h]

theorem State.Phase.congr (ok : s.Phase) (registry : t.registry = s.registry) (line : t.trunk.line = s.trunk.line)
    (current : t.trunk.current = s.trunk.current) : t.Phase := by
  cases ok with
  | rest l n => exact .rest (line ▸ l) (current.trans n)
  | guard l x c rel => exact .guard (line.trans l) x (current.trans c) rel
  | live x l c target =>
    refine .live x (line ▸ l) (current.trans c) ((State.targetOk_iff x).mp ?_)
    rw [State.targetOk_of_registry registry]
    exact (State.targetOk_iff x).mpr target

theorem State.HuntOk.congr (ok : s.HuntOk) (line : t.trunk.line = s.trunk.line) (hunt : t.trunk.hunt = s.trunk.hunt) :
    t.HuntOk := by
  rw [State.HuntOk, line, hunt]
  exact ok

/-- An operation that changes nothing a sound state is read from keeps it sound. -/
theorem State.Sane.of_view (ok : s.Sane) (h : t.view = s.view) : t.Sane := by
  simp only [State.view, Prod.mk.injEq] at h
  obtain ⟨roll, store, line, hunt⟩ := h
  have registry : t.registry = s.registry := congrArg Prod.fst roll
  have current : t.trunk.current = s.trunk.current := congrArg (fun v => v.2.1) store
  exact ⟨ok.registered.of_roll roll, ok.stored.of_store store,
    ok.held.congr (State.record_of_registry registry) current, ok.phase.congr registry line current,
    ok.hunt.congr line hunt⟩

/-! ### One record changed -/

theorem State.RecordsOk.update (h : s.RecordsOk) (record : t.record = Function.update s.record i o)
    (ok : o.all Record.ok = true) : t.RecordsOk := fun j => by
  rw [record]
  by_cases hj : j = i
  · rw [hj, Function.update_self]
    exact ok
  · rw [Function.update_of_ne hj]
    exact h j

theorem State.Registered.record_ok (h : s.Registered) (hr : s.record i = some r) : r.ok = true := by
  simpa [hr] using h.records i

theorem listed_some {ch : Channel} : Listed ch (some r) ↔ r.owner = ch ∧ r.reasons ≠ 0 := by
  simp [Listed]

/-- The Change Lists after postings to one record. -/
theorem State.Posted.touch (h : s.Posted) (hr : s.record i = some r) (k : r.Follows r')
    (record : t.record = Function.update s.record i (some r'))
    (lists : ∀ ch, (t.port ch).changeList =
      if ch = r.owner then changeListAfter (s.port ch).changeList i r r' else (s.port ch).changeList) :
    t.Posted := fun ch => by
  rw [lists, record]
  by_cases hch : ch = r.owner
  · rw [if_pos hch, changeListAfter]
    subst hch
    by_cases hz : r.reasons = 0
    · by_cases hz' : r'.reasons = 0
      · rw [if_neg (by simp [hz'])]
        exact (h _).keep (by rw [hr, listed_some, listed_some]; simp [hz, hz'])
      · rw [if_pos ⟨hz, hz'⟩]
        exact (h _).join (by rw [hr, listed_some]; simp [hz]) (listed_some.mpr ⟨k.owner, hz'⟩)
    · have hz' : r'.reasons ≠ 0 := fun e => hz (k.reasons e)
      rw [if_neg fun ⟨e, _⟩ => hz e]
      refine (h _).keep ?_
      rw [hr, listed_some, listed_some]
      exact iff_of_true ⟨k.owner, hz'⟩ ⟨rfl, hz⟩
  · rw [if_neg hch]
    refine (h ch).keep ?_
    rw [hr, listed_some, listed_some, k.owner]
    simp [Ne.symm hch]

theorem State.record_setRecord_eq (s : State) (i : SlotNo) (o : Option Record) :
    (s.setRecord i o).record = Function.update s.record i o := by
  funext j
  rw [State.record_setRecord, Function.update_apply]
  simp only [eq_comm]

theorem State.record_touch_eq (s : State) (i : SlotNo) (r r' : Record) (bs : List BufNo) :
    (s.touch i r r' bs).record = Function.update s.record i (some r') := by
  funext j
  rw [State.record_touch, Function.update_apply]
  simp only [eq_comm]

theorem State.changeList_touch (s : State) (i : SlotNo) (r r' : Record) (bs : List BufNo) (ch : Channel) :
    ((s.touch i r r' bs).port ch).changeList =
      if ch = r.owner then changeListAfter (s.port ch).changeList i r r' else (s.port ch).changeList := by
  rw [State.port_touch]

theorem State.deliveryQueue_touch (s : State) (i : SlotNo) (r r' : Record) (bs : List BufNo) (ch : Channel) :
    ((s.touch i r r' bs).port ch).deliveryQueue = (s.port ch).deliveryQueue := by
  rw [State.port_touch]

/-- A touch of a record that stands where it stood. -/
theorem State.Registered.touch (h : s.Registered) (hr : s.record i = some r) (k : r.Follows r') (ok : r'.ok = true)
    (standing : r'.standing = r.standing) (bs : List BufNo) : (s.touch i r r' bs).Registered := by
  have record := s.record_touch_eq i r r' bs
  have same := State.standing_same record hr standing
  exact ⟨h.records.update record ok,
    h.queues.congr same (by simp) (by simpa using h.queues.cursor) (by simp [State.setRecord, State.setSlot])
      (by simp [State.setRecord, State.setSlot]) (by simp [State.setRecord, State.setSlot]),
    h.naming.congr (State.counted_of_standing same) (funext fun a => by simp) (by simp [State.identities]),
    h.posted.touch hr k record (s.changeList_touch i r r' bs)⟩

/-! ### Buffers given back -/

theorem State.Stored.not_reserved {b : BufNo} (h : s.Stored) (hb : b ∈ s.outq i) : s.reservedBuffer ≠ some b := by
  intro e
  have h1 := ((h.queued i).2 b).mp hb
  have h2 := (h.reserved.2 b).mp (by rw [e]; simp)
  exact absurd (h1.symm.trans h2) (by simp)

/-- Buffers that leave their outbound queue, or the exchange that had reserved them, for the tail of the free buffer
list. -/
theorem State.Stored.release {fs : List BufNo} (h : s.Stored) (free : t.pool.free = s.pool.free ++ fs)
    (place : t.placeOf = overwrite s.placeOf fs .free) (length : ∀ b, (t.buffer b).length ≤ 120) (nodup : fs.Nodup)
    (taken : ∀ b ∈ fs, s.placeOf b ≠ .free ∧ (s.placeOf b).isDelivered = false)
    (queues : ∀ j, (t.outq j).Nodup ∧ ∀ b, b ∈ t.outq j ↔ b ∈ s.outq j ∧ b ∉ fs)
    (delivered : ∀ ch, (t.port ch).deliveryQueue = (s.port ch).deliveryQueue)
    (reserved : ∀ b, t.reservedBuffer = some b ↔ s.reservedBuffer = some b ∧ b ∉ fs) : t.Stored where
  free := by
    rw [free, place]
    exact h.free.joinAll rfl nodup fun b hb => (taken b hb).1
  queued j := by
    rw [place]
    exact (h.queued j).dropAll (by simp) (queues j).1 (queues j).2
  delivered := by
    rw [show t.port0.deliveryQueue = _ from delivered .ch0, show t.port1.deliveryQueue = _ from delivered .ch1, place]
    exact h.delivered.keepAll (by simp [Place.isDelivered]) fun b hb => by simp [(taken b hb).2]
  reserved := by
    rw [place]
    refine h.reserved.dropAll (by simp) ?_ fun b => ?_
    · cases t.reservedBuffer <;> simp
    · simpa using reserved b
  length := length

theorem State.placeOf_freeAll (s : State) (fs : List BufNo) : (s.freeAll fs).placeOf = overwrite s.placeOf fs .free := by
  funext b
  rw [State.placeOf, State.buffer_freeAll, overwrite]
  split <;> rfl

theorem State.length_freeAll (s : State) (fs : List BufNo) (b : BufNo) :
    ((s.freeAll fs).buffer b).length = (s.buffer b).length := by
  rw [State.buffer_freeAll]
  split <;> rfl

/-- Buffers given back in a touch, from the record's outbound queue and the exchange's reservation. -/
theorem State.Stored.release_touched {fs : List BufNo} (h : s.Stored) (hr : s.record i = some r)
    (record : t.record = Function.update s.record i (some r')) (pool : t.pool = (s.freeAll fs).pool)
    (delivered : ∀ ch, (t.port ch).deliveryQueue = (s.port ch).deliveryQueue) (nodup : fs.Nodup)
    (taken : ∀ b ∈ fs, b ∈ r.outq ∨ s.reservedBuffer = some b) (queueNodup : r'.outq.Nodup)
    (queue : ∀ b, b ∈ r'.outq ↔ b ∈ r.outq ∧ b ∉ fs)
    (reserved : ∀ b, t.reservedBuffer = some b ↔ s.reservedBuffer = some b ∧ b ∉ fs) : t.Stored := by
  have hq : s.outq i = r.outq := State.outq_some hr
  have places : ∀ b ∈ fs, s.placeOf b = .queued i ∨ s.placeOf b = .reserved := fun b hb => by
    rcases taken b hb with hb | hb
    · exact .inl (((h.queued i).2 b).mp (hq ▸ hb))
    · exact .inr ((h.reserved.2 b).mp (by rw [hb]; simp))
  have buffer : t.buffer = (s.freeAll fs).buffer := funext fun b => by rw [State.buffer, pool]; rfl
  refine h.release (by rw [pool, State.freeAll_free]) ?_ (fun b => ?_) nodup (fun b hb => ?_) (fun j => ?_) delivered
    reserved
  · rw [← State.placeOf_freeAll]
    exact funext fun b => by rw [State.placeOf, buffer]; rfl
  · rw [buffer, State.length_freeAll]
    exact h.length b
  · rcases places b hb with e | e <;> rw [e] <;> simp [Place.isDelivered]
  · rw [State.outq_update record]
    by_cases hj : j = i
    · rw [hj, Function.update_self, hq]
      exact ⟨queueNodup, queue⟩
    · rw [Function.update_of_ne hj]
      refine ⟨(h.queued j).1, fun b => ⟨fun hb => ⟨hb, fun hf => ?_⟩, fun hb => hb.1⟩⟩
      have := ((h.queued j).2 b).mp hb
      rcases places b hf with e | e
      · exact hj (by simpa using this.symm.trans e)
      · exact absurd (this.symm.trans e) (by simp)

end Sys2Proof.Machine
end

section
/-! A record as R2 allows it, and what every change of a record keeps of that. -/

namespace Sys2Proof.Machine

/-- The outbound queue holds four at most, and head attempts are present with a message alone (R2, R92, R159). -/
def QueueFits (outq : List BufNo) (attempts : Option Nat) : Prop :=
  outq.length ≤ 4 ∧ if outq = [] then attempts = none else ∃ n, attempts = some n ∧ n ≤ 15

/-- A hold is between one unit of time and 4095 quanta (R114). -/
def HoldFits (hold : Option Nat) : Prop := ∀ n, hold = some n → 1 ≤ n ∧ n ≤ 4095 * Config.quantum

/-- A record as R2 allows it, part by part. -/
structure Record.Fits (r : Record) : Prop where
  address : within 1 r.address.toNat 254 = true
  identity : within 1 r.identity.length 16 = true
  queue : QueueFits r.outq r.headAttempts
  hold : HoldFits r.hold
  replies : r.replies ≤ 65535
  retransmissions : r.retransmissions ≤ 65535
  delivered : r.delivered ≤ 255
  undelivered : r.undelivered ≤ 255
  fields : r.fieldsOk = true

theorem Record.ok_iff (r : Record) : r.ok = true ↔ r.Fits := by
  have queue : (within 0 r.outq.length 4
      && (if r.outq.isEmpty then r.headAttempts.isNone else presentIn 0 r.headAttempts 15)) = true ↔
      QueueFits r.outq r.headAttempts := by
    unfold QueueFits presentIn
    cases hq : r.outq <;> cases ha : r.headAttempts <;> simp [within]
  have hold : r.hold.all (fun t => within 1 t (4095 * Config.quantum)) = true ↔ HoldFits r.hold := by
    unfold HoldFits
    cases r.hold <;> simp [within]
  unfold Record.ok
  simp only [Bool.and_eq_true] at queue ⊢
  constructor
  · intro ⟨⟨⟨⟨⟨⟨⟨⟨⟨address, identity⟩, length⟩, attempts⟩, h⟩, replies⟩, retransmissions⟩, delivered⟩, undelivered⟩, fields⟩
    exact ⟨address, identity, queue.mp ⟨length, attempts⟩, hold.mp h, (within_iff.mp replies).2,
      (within_iff.mp retransmissions).2, (within_iff.mp delivered).2, (within_iff.mp undelivered).2, fields⟩
  · intro h
    obtain ⟨length, attempts⟩ := queue.mpr h.queue
    exact ⟨⟨⟨⟨⟨⟨⟨⟨⟨h.address, h.identity⟩, length⟩, attempts⟩, hold.mpr h.hold⟩, within_iff.mpr ⟨Nat.zero_le _, h.replies⟩⟩,
      within_iff.mpr ⟨Nat.zero_le _, h.retransmissions⟩⟩, within_iff.mpr ⟨Nat.zero_le _, h.delivered⟩⟩,
      within_iff.mpr ⟨Nat.zero_le _, h.undelivered⟩⟩, h.fields⟩

/-! ### The fields of a state -/

variable {r r' : Record}

theorem presentIn_some {low n high : Nat} : presentIn low (some n) high = true ↔ low ≤ n ∧ n ≤ high := within_iff

theorem presentIn_elim {low high : Nat} {n : Option Nat} (h : presentIn low n high = true) :
    ∃ k, n = some k ∧ k ≤ high := by
  cases n with
  | none => cases h
  | some k => exact ⟨k, rfl, (presentIn_some.mp h).2⟩

/-- The fields of a member depend on seven of them. -/
theorem Record.fieldsOk_member (hm : r.state.isMember = true) (state : r'.state = r.state) (skip : r'.skip = r.skip)
    (misses : r'.missCount = r.missCount) (probes : r'.failedProbes = r.failedProbes)
    (attempts : r'.admitAttempts = r.admitAttempts) (cause : r'.retireCause = r.retireCause)
    (dismiss : r'.dismissPending = r.dismissPending) (h : r.fieldsOk = true) : r'.fieldsOk = true := by
  unfold Record.fieldsOk at h ⊢
  rw [state, skip, misses, probes, attempts, cause, dismiss]
  cases hs : r.state <;> simp [hs, RecState.isMember] at hm h ⊢ <;> exact h

/-- A record with all its state's own fields as they were, in a member. -/
theorem Record.Fits.member (h : r.Fits) (hm : r.state.isMember = true) (address : r'.address = r.address)
    (identity : r'.identity = r.identity) (queue : QueueFits r'.outq r'.headAttempts) (hold : HoldFits r'.hold)
    (replies : r'.replies ≤ 65535) (retransmissions : r'.retransmissions ≤ 65535) (delivered : r'.delivered ≤ 255)
    (undelivered : r'.undelivered ≤ 255) (state : r'.state = r.state) (skip : r'.skip = r.skip)
    (misses : r'.missCount = r.missCount) (probes : r'.failedProbes = r.failedProbes)
    (attempts : r'.admitAttempts = r.admitAttempts) (cause : r'.retireCause = r.retireCause)
    (dismiss : r'.dismissPending = r.dismissPending) : r'.Fits where
  address := address ▸ h.address
  identity := identity ▸ h.identity
  queue := queue
  hold := hold
  replies := replies
  retransmissions := retransmissions
  delivered := delivered
  undelivered := undelivered
  fields := Record.fieldsOk_member hm state skip misses probes attempts cause dismiss h.fields

theorem HoldFits.none : HoldFits none := fun _ h => by cases h

/-- What a member's fields are, and that its skip and miss counts may take any value in range. -/
theorem Record.fieldsOk_counts (hm : r.state.isMember = true) (h : r.fieldsOk = true) :
    r.admitAttempts = none ∧ r.retireCause = none ∧ r.dismissPending = none
      ∧ ∀ k m, k ≤ 15 → m ≤ 15 → Record.fieldsOk { r with skip := some k, missCount := some m } = true := by
  unfold Record.fieldsOk at h
  cases hs : r.state <;> simp [hs, RecState.isMember] at hm h <;>
    simp_all [Record.fieldsOk, presentIn, within]

/-- The skip and miss counts of a member are in range. -/
theorem Record.fieldsOk_range (hm : r.state.isMember = true) (h : r.fieldsOk = true) :
    (∃ k, r.skip = some k ∧ k ≤ 15) ∧ ∃ m, r.missCount = some m ∧ m ≤ 15 := by
  have range : presentIn 0 r.skip 15 = true ∧ presentIn 0 r.missCount 15 = true := by
    unfold Record.fieldsOk at h
    cases hs : r.state <;> simp [hs, RecState.isMember] at hm h <;> simp [h]
  exact ⟨presentIn_elim range.1, presentIn_elim range.2⟩

theorem Record.Fits.counts (h : r.Fits) (hm : r.state.isMember = true) {k m : Nat} (hk : k ≤ 15) (hmc : m ≤ 15) :
    Record.Fits { r with skip := some k, missCount := some m } :=
  { h with fields := (Record.fieldsOk_counts hm h.fields).2.2.2 k m hk hmc }

theorem Record.Fits.skip (h : r.Fits) (hm : r.state.isMember = true) {k : Nat} (hk : k ≤ 15) :
    Record.Fits { r with skip := some k } := by
  obtain ⟨-, m, hmc, hle⟩ := Record.fieldsOk_range hm h.fields
  have := h.counts hm hk hle
  rwa [← hmc] at this

theorem Record.Fits.misses (h : r.Fits) (hm : r.state.isMember = true) {m : Nat} (hmc : m ≤ 15) :
    Record.Fits { r with missCount := some m } := by
  obtain ⟨⟨k, hk, hle⟩, -⟩ := Record.fieldsOk_range hm h.fields
  have := h.counts hm hle hmc
  rwa [← hk] at this

/-! ### Posting -/

theorem satInc_le (limit n : Nat) : satInc limit n ≤ limit := Nat.min_le_left ..

theorem Record.fits_addReason (h : r.Fits) (why : Reason) : (r.addReason why).Fits where
  address := h.address
  identity := h.identity
  queue := h.queue
  hold := h.hold
  replies := h.replies
  retransmissions := h.retransmissions
  delivered := by
    unfold Record.addReason
    dsimp only
    split
    · exact satInc_le ..
    · exact h.delivered
  undelivered := by
    unfold Record.addReason
    dsimp only
    split
    · exact satInc_le ..
    · exact h.undelivered
  fields := by
    have fields := h.fields
    unfold Record.fieldsOk at fields ⊢
    cases hs : r.state <;> simp only [hs, Record.addReason] at fields ⊢
    case retired =>
      simp only [Bool.and_eq_true] at fields ⊢
      exact ⟨fields.1, by simpa using why.bit_or_ne_zero r.reasons⟩
    all_goals exact fields

/-! ### New records, and the states of admission -/

theorem Record.fits_fresh {state : RecState} (hs : state = .active ∨ state = .admitting) {address : Byte}
    {identity : List Byte} (ha : within 1 address.toNat 254 = true) (hi : within 1 identity.length 16 = true)
    (cls : Class) (owner : Channel) : (Record.fresh state address identity cls owner).Fits where
  address := ha
  identity := hi
  queue := ⟨by simp [Record.fresh], by simp [Record.fresh]⟩
  hold := .none
  replies := by simp [Record.fresh]
  retransmissions := by simp [Record.fresh]
  delivered := by simp [Record.fresh]
  undelivered := by simp [Record.fresh]
  fields := by rcases hs with rfl | rfl <;> rfl

theorem Record.fieldsOk_admitting (hs : r.state = .admitting) (h : r.fieldsOk = true) :
    r.skip = none ∧ r.missCount = none ∧ r.failedProbes = none ∧ r.hold = none ∧ (∃ n, r.admitAttempts = some n ∧ n ≤ 2)
      ∧ r.retireCause = none ∧ r.dismissPending = none ∧ r.outq = [] := by
  unfold Record.fieldsOk at h
  simp only [hs, Bool.and_eq_true, Option.isNone_iff_eq_none, List.isEmpty_iff] at h
  obtain ⟨⟨⟨⟨⟨⟨⟨skip, misses⟩, probes⟩, hold⟩, attempts⟩, cause⟩, dismiss⟩, outq⟩ := h
  exact ⟨skip, misses, probes, hold, presentIn_elim attempts, cause, dismiss, outq⟩

theorem Record.Fits.attempt (h : r.Fits) (hs : r.state = .admitting) {n : Nat} (hn : n ≤ 2) :
    Record.Fits { r with admitAttempts := some n } := by
  obtain ⟨skip, misses, probes, hold, -, cause, dismiss, outq⟩ := Record.fieldsOk_admitting hs h.fields
  exact { h with fields := by simp [Record.fieldsOk, hs, skip, misses, probes, hold, cause, dismiss, outq, presentIn, within, hn] }

/-- An ADMITTING record that has been confirmed (R14). -/
def Record.confirmed (r : Record) : Record :=
  { r with
    state := .active
    admitAttempts := none
    skip := some 0
    missCount := some 0
    sendSeq := 0
    recvSeq := 0
    replies := satInc 65535 r.replies }

theorem Record.Fits.confirmed (h : r.Fits) (hs : r.state = .admitting) : r.confirmed.Fits := by
  obtain ⟨skip, misses, probes, hold, -, cause, dismiss, outq⟩ := Record.fieldsOk_admitting hs h.fields
  exact { h with
    replies := satInc_le ..
    fields := by simp [Record.confirmed, Record.fieldsOk, probes, cause, dismiss, presentIn, within] }

/-! ### Retirement -/

theorem Record.fieldsOk_retiring (hs : r.state = .retiring) (h : r.fieldsOk = true) :
    r.skip = none ∧ r.missCount = none ∧ r.failedProbes = none ∧ r.hold = none ∧ r.admitAttempts = none
      ∧ r.retireCause.isSome = true ∧ r.dismissPending.isSome = true := by
  unfold Record.fieldsOk at h
  simp only [hs, Bool.and_eq_true, Option.isNone_iff_eq_none] at h
  obtain ⟨⟨⟨⟨⟨⟨skip, misses⟩, probes⟩, hold⟩, attempts⟩, cause⟩, dismiss⟩ := h
  exact ⟨skip, misses, probes, hold, attempts, cause, dismiss⟩

theorem Record.Fits.retiredNow (h : r.Fits) (hs : r.state = .retiring) (hq : r.outq = []) : r.retiredNow.Fits := by
  obtain ⟨skip, misses, probes, hold, attempts, cause, -⟩ := Record.fieldsOk_retiring hs h.fields
  exact { h with
    fields := by simp [Record.retiredNow, Record.fieldsOk, skip, misses, probes, hold, attempts, cause, hq] }

/-- A DISMISS frame was sent: the dismissal is no longer pending (R84). -/
theorem Record.Fits.dismissed (h : r.Fits) (hs : r.state = .retiring) :
    Record.Fits { r with dismissPending := some false } := by
  obtain ⟨skip, misses, probes, hold, attempts, cause, -⟩ := Record.fieldsOk_retiring hs h.fields
  exact { h with fields := by simp [Record.fieldsOk, hs, skip, misses, probes, hold, attempts, cause] }

theorem QueueFits.filter {outq : List BufNo} {attempts : Option Nat} (h : QueueFits outq attempts) (p : BufNo → Bool) :
    QueueFits (outq.filter p) (if outq.filter p = [] then none else attempts) := by
  refine ⟨(List.length_filter_le ..).trans h.1, ?_⟩
  split
  · rfl
  · next e =>
    have : outq ≠ [] := fun e' => e (by simp [e'])
    have := h.2
    rwa [if_neg ‹outq ≠ []›] at this

theorem Record.Fits.entered (h : r.Fits) (cause : RetireCause) (p : BufNo → Bool) (gone : List BufNo)
    (stays dismiss : Bool) (hp : stays = false → r.outq.filter p = []) :
    (r.enteredRetirement cause (r.outq.filter p) gone stays dismiss).Fits where
  address := h.address
  identity := h.identity
  queue := h.queue.filter p
  hold := .none
  replies := h.replies
  retransmissions := h.retransmissions
  delivered := h.delivered
  undelivered := by
    unfold Record.enteredRetirement
    dsimp only
    split
    · exact h.undelivered
    · exact Nat.min_le_left ..
  fields := by
    cases stays with
    | true => rfl
    | false =>
      simp only [Record.enteredRetirement, Record.fieldsOk, Bool.false_eq_true, if_false, hp rfl]
      simp

/-- A record without its carried buffer (R21, R108). -/
def Record.uncarried (r : Record) (b : BufNo) : Record :=
  { r with
    outq := r.outq.erase b
    headAttempts := if r.outq.erase b = [] then none else r.headAttempts }

theorem QueueFits.erase {outq : List BufNo} {attempts : Option Nat} (h : QueueFits outq attempts) (b : BufNo) :
    QueueFits (outq.erase b) (if outq.erase b = [] then none else attempts) := by
  refine ⟨(List.length_erase_le ..).trans h.1, ?_⟩
  split
  · rfl
  · next e =>
    have : outq ≠ [] := fun e' => e (by simp [e'])
    have := h.2
    rwa [if_neg ‹outq ≠ []›] at this

theorem Record.Fits.uncarried (h : r.Fits) (hs : r.state = .retiring) (b : BufNo) : (r.uncarried b).Fits := by
  obtain ⟨skip, misses, probes, hold, attempts, cause, dismiss⟩ := Record.fieldsOk_retiring hs h.fields
  exact { h with
    queue := h.queue.erase b
    fields := by simp [Record.uncarried, Record.fieldsOk, hs, skip, misses, probes, hold, attempts, cause, dismiss] }

/-! ### Members: commands -/

theorem Record.fieldsOk_silent (hs : r.state = .silent) (h : r.fieldsOk = true) :
    ∃ f, r.failedProbes = some f ∧ f ≤ 255 := by
  unfold Record.fieldsOk at h
  simp only [hs, Bool.and_eq_true] at h
  obtain ⟨⟨⟨⟨-, probes⟩, -⟩, -⟩, -⟩ := h
  exact presentIn_elim probes

theorem Record.Fits.suspended (h : r.Fits) (hm : r.state.isMember = true) :
    Record.Fits { r with state := .suspended, failedProbes := none } := by
  obtain ⟨⟨k, hk, hk'⟩, m, hmc, hmc'⟩ := Record.fieldsOk_range hm h.fields
  obtain ⟨attempts, cause, dismiss, -⟩ := Record.fieldsOk_counts hm h.fields
  exact { h with fields := by simp [Record.fieldsOk, hk, hmc, attempts, cause, dismiss, presentIn, within, hk', hmc'] }

/-- A member that is ACTIVE with its counts begun again: resumed, or recovered (R17, R29). -/
theorem Record.Fits.active (h : r.Fits) (hm : r.state.isMember = true) {k : Nat} (hk : k ≤ 15) :
    Record.Fits { r with state := .active, missCount := some 0, failedProbes := none, skip := some k } := by
  obtain ⟨attempts, cause, dismiss, -⟩ := Record.fieldsOk_counts hm h.fields
  exact { h with fields := by simp [Record.fieldsOk, attempts, cause, dismiss, presentIn, within, hk] }

theorem Record.fieldsOk_suspended (hs : r.state = .suspended) (h : r.fieldsOk = true) : r.failedProbes = none := by
  unfold Record.fieldsOk at h
  simp only [hs, Bool.and_eq_true, Option.isNone_iff_eq_none] at h
  simp_all

theorem Record.Fits.setHold (h : r.Fits) {hold : Option Nat} (hh : HoldFits hold)
    (e : r.hold = none → hold = none) : Record.Fits { r with hold := hold } := by
  refine { h with hold := hh, fields := ?_ }
  have fields := h.fields
  unfold Record.fieldsOk at fields ⊢
  cases hs : r.state <;> simp only [hs] at fields ⊢
  case admitting | retiring | retired =>
    have : r.hold = none := by
      simp only [Bool.and_eq_true, Option.isNone_iff_eq_none] at fields
      simp_all
    rw [e this]
    rwa [this] at fields
  all_goals exact fields

theorem Record.Fits.memberHold (h : r.Fits) (hm : r.state.isMember = true) {hold : Option Nat} (hh : HoldFits hold) :
    Record.Fits { r with hold := hold } :=
  h.member hm rfl rfl h.queue hh h.replies h.retransmissions h.delivered h.undelivered rfl rfl rfl rfl rfl rfl rfl

theorem Record.Fits.cleared (h : r.Fits) (hs : r.state ≠ .retired) :
    Record.Fits { r with reasons := 0, delivered := 0, undelivered := 0 } := by
  refine { h with delivered := Nat.zero_le _, undelivered := Nat.zero_le _, fields := ?_ }
  have fields := h.fields
  unfold Record.fieldsOk at fields ⊢
  cases e : r.state <;> simp only [e] at fields ⊢
  case retired => exact absurd e hs
  all_goals exact fields

theorem Record.Fits.setOwner (h : r.Fits) (owner : Channel) : Record.Fits { r with owner := owner } :=
  { h with fields := h.fields }

theorem Record.Fits.setClass (h : r.Fits) (cls : Class) : Record.Fits { r with cls := cls } :=
  { h with fields := h.fields }

theorem Record.Fits.enqueued (h : r.Fits) (hm : r.state.isMember = true) (b : BufNo) (hl : r.outq.length < 4) :
    (r.enqueue b).Fits := by
  refine h.member hm rfl rfl ⟨?_, ?_⟩ h.hold h.replies h.retransmissions h.delivered h.undelivered rfl rfl rfl rfl rfl rfl
    rfl
  · simp only [Record.enqueue, List.length_append, List.length_singleton]
    omega
  · have := h.queue.2
    by_cases e : r.outq = []
    · simp [Record.enqueue, e]
    · rw [if_neg e] at this
      simpa [Record.enqueue, e] using this

/-- The skip count after a visit (R44), after SET CLASS (R30) or after SET POLLING (R53). -/
theorem Record.Fits.visited (h : r.Fits) {d : Nat} (hd : d ≤ 16) :
    Record.Fits { r with skip := (visitOutcome d r).2 } := by
  by_cases hm : r.state.isMember = true
  · obtain ⟨⟨k, hk, hle⟩, -⟩ := Record.fieldsOk_range hm h.fields
    have : ∃ k', (visitOutcome d r).2 = some k' ∧ k' ≤ 15 := by
      unfold visitOutcome
      rw [hk]
      cases k <;> cases hs : r.state <;> cases r.cls <;> simp [hs, RecState.isMember] at hm ⊢ <;> omega
    obtain ⟨k', e, hk'⟩ := this
    rw [e]
    exact h.skip hm hk'
  · have : (visitOutcome d r).2 = r.skip := by
      unfold visitOutcome
      cases hs : r.state <;> simp [hs, RecState.isMember] at hm ⊢
    rw [this]
    exact h

theorem Record.Fits.classed (h : r.Fits) {d : Nat} (hd : d ≤ 16) (cls : Class) :
    Record.Fits { r with cls := cls, skip := classSkip d r.state cls r.skip } := by
  refine Record.Fits.setClass (r := { r with skip := classSkip d r.state cls r.skip }) ?_ cls
  by_cases hs : r.state = .active ∨ r.state = .suspended
  · have e : classSkip d r.state cls r.skip = some (if cls = .fast then 0 else d - 1) := by
      rcases hs with hs | hs <;> rw [hs] <;> cases cls <;> rfl
    have hm : r.state.isMember = true := by rcases hs with hs | hs <;> rw [hs] <;> rfl
    rw [e]
    exact h.skip hm (by split <;> omega)
  · have e : classSkip d r.state cls r.skip = r.skip := by
      unfold classSkip
      cases hs' : r.state <;> simp_all
    rw [e]
    exact h

theorem Record.Fits.lowered (h : r.Fits) (d : Nat) : (r.lowerSkip d).Fits := by
  by_cases hs : r.state = .active ∨ r.state = .suspended
  · have hm : r.state.isMember = true := by rcases hs with hs | hs <;> rw [hs] <;> rfl
    obtain ⟨⟨k, hk, hle⟩, -⟩ := Record.fieldsOk_range hm h.fields
    have e : r.lowerSkip d = { r with skip := some (min k (d - 1)) } := by
      unfold Record.lowerSkip
      rcases hs with hs | hs <;> simp [hs, hk]
    rw [e]
    exact h.skip hm (by omega)
  · have e : r.lowerSkip d = r := by
      unfold Record.lowerSkip
      cases hs' : r.state <;> simp_all
    rw [e]
    exact h

/-! ### Members: outcomes of POLL and DATA -/

theorem Record.Fits.recovers (h : r.Fits) {d : Nat} (hd : d ≤ 16) : (r.recovers d).Fits := by
  unfold Record.recovers
  split
  · next hs => exact Record.fits_addReason (h.active (by rw [hs]; rfl) (by split <;> omega)) _
  · exact h

/-- The head message is finished with: the next one's attempts begin at 0 (R91, R92). -/
theorem QueueFits.finished {outq : List BufNo} {attempts : Option Nat} (h : QueueFits outq attempts) (b : BufNo) :
    QueueFits (outq.erase b) (if outq.erase b = [] then none else some 0) := by
  refine ⟨(List.length_erase_le ..).trans h.1, ?_⟩
  split <;> simp

theorem Record.Fits.unacknowledged (h : r.Fits) (hm : r.state.isMember = true) {limit : Nat} (hl : limit ≤ 15)
    {b : BufNo} (hb : b ∈ r.outq) : (r.unacknowledged limit b).Fits := by
  unfold Record.unacknowledged
  dsimp only
  split
  · refine Record.fits_addReason ?_ _
    exact h.member hm rfl rfl (h.queue.finished b) h.hold h.replies (Nat.min_le_left ..) h.delivered h.undelivered rfl rfl
      rfl rfl rfl rfl rfl
  · next hlt =>
    refine h.member hm rfl rfl ⟨h.queue.1, ?_⟩ h.hold h.replies (Nat.min_le_left ..) h.delivered h.undelivered rfl rfl rfl
      rfl rfl rfl rfl
    rw [if_neg (List.ne_nil_of_mem hb)]
    exact ⟨_, rfl, by omega⟩

theorem Record.Fits.acknowledged (h : r.Fits) (hm : r.state.isMember = true) (b : BufNo) : (r.acknowledged b).Fits := by
  refine Record.fits_addReason ?_ _
  exact h.member hm rfl rfl (h.queue.finished b) h.hold h.replies h.retransmissions h.delivered h.undelivered rfl rfl rfl
    rfl rfl rfl rfl

theorem Record.Fits.judged (h : r.Fits) (hm : r.state.isMember = true) {limit : Nat} (hl : limit ≤ 15) {x : Exchange}
    (hx : ∀ b, x.outbound = some b → b ∈ r.outq) (v : Reply) : (r.judged limit x v).Fits := by
  rcases r.judged_cases limit x v with e | ⟨b, -, e⟩ | ⟨b, hb, e⟩ <;> rw [e]
  · exact h
  · exact h.acknowledged hm b
  · exact h.unacknowledged hm hl (hx b hb)

theorem holdFits_quanta {n : Nat} (hz : n ≠ 0) (hn : n ≤ 4095) : HoldFits (some (n * Config.quantum)) := by
  intro k hk
  cases hk
  unfold Config.quantum
  omega

theorem Record.Fits.applied (h : r.Fits) (hm : r.state.isMember = true) (x : Exchange) {v : Reply}
    (hv : ∀ n, v.kind = .hold n → n ≤ 4095) : (r.applied x v).Fits := by
  unfold Record.applied
  split
  · split
    · exact { h with fields := h.fields }
    · exact h
  · next n hk =>
    split
    · split
      · exact Record.fits_addReason (h.memberHold hm .none) _
      · exact h
    · next hz =>
      have held := h.memberHold hm (holdFits_quanta hz (hv n hk))
      split
      · exact held
      · exact Record.fits_addReason held _
  all_goals exact h

theorem Record.Fits.replied (h : r.Fits) (hm : r.state.isMember = true) {d limit : Nat} (hd : d ≤ 16) (hl : limit ≤ 15)
    {x : Exchange} (hx : ∀ b, x.outbound = some b → b ∈ r.outq) {v : Reply} (hv : ∀ n, v.kind = .hold n → n ≤ 4095) :
    (r.replied d limit x v).Fits := by
  have hm1 := Record.recovers_isMember d hm
  have h1 : Record.Fits { r.recovers d with missCount := some 0, replies := min 65535 ((r.recovers d).replies + 1) } :=
    { (h.recovers hd).misses hm1 (Nat.zero_le _) with replies := Nat.min_le_left .. }
  have h2 := h1.judged (limit := limit) hm1 hl (x := x) (fun b hb => by simpa using hx b hb) v
  exact h2.applied (by rw [Record.judged_state]; exact hm1) x hv

theorem Record.Fits.counted (h : r.Fits) (hm : r.state.isMember = true) (threshold : Nat) :
    (r.counted threshold).Fits := by
  have le : min 15 (r.missCount.getD 0 + 1) ≤ 15 := Nat.min_le_left ..
  obtain ⟨⟨k, hk, hk'⟩, -⟩ := Record.fieldsOk_range hm h.fields
  obtain ⟨attempts, cause, dismiss, -⟩ := Record.fieldsOk_counts hm h.fields
  unfold Record.counted
  dsimp only
  split
  · split
    · refine Record.fits_addReason ?_ _
      exact { h with fields := by simp [Record.fieldsOk, attempts, cause, dismiss, presentIn, within] }
    · exact h.misses hm le
  · next hs =>
    exact { h with fields := by simp [Record.fieldsOk, hs, hk, attempts, cause, dismiss, presentIn, within, hk'] }
  · exact h.misses hm le
  all_goals exact h

theorem Record.Fits.missed (h : r.Fits) (hm : r.state.isMember = true) {health : Health} (hl : health.retryLimit ≤ 15)
    {x : Exchange} (hx : ∀ b, x.outbound = some b → b ∈ r.outq) : (r.missed health x).Fits := by
  unfold Record.missed
  split
  · next b hb => exact (h.unacknowledged hm hl (hx b hb)).counted (by rw [Record.unacknowledged_state]; exact hm) _
  · exact h.counted hm _

end Sys2Proof.Machine
end

section
/-! The records and the registry's collections under every change of one record's standing: retirement, creation,
confirmation, and the slot freed. -/

namespace Sys2Proof.Machine

variable {s t : State} {i : SlotNo} {r r' : Record} {o : Option Record}

/-! ### One slot, one entry of the Address Index -/

theorem State.record_of_slots {x : Slot} (h : t.registry.slots = s.registry.slots.set i x) :
    t.record = Function.update s.record i x.record := by
  funext j
  have e : t.slot j = (s.setSlot i x).slot j := by rw [State.slot, h]; rfl
  rw [State.record, e, State.slot_setSlot, Function.update_apply]
  by_cases hj : i = j
  · rw [if_pos hj, if_pos hj.symm]
  · rw [if_neg hj, if_neg (Ne.symm hj)]
    rfl

theorem State.lookup_of_index {a : Byte} {e : Option SlotNo}
    (h : t.registry.addressIndex = s.registry.addressIndex.set a.toFin e) : t.lookup = Function.update s.lookup a e := by
  funext b
  have hb : t.lookup b = (s.setIndex a e).lookup b := by rw [State.lookup, h]; rfl
  rw [hb, State.lookup_setIndex, Function.update_apply]
  simp only [eq_comm]

/-- An address and its identity leave: the record counts no longer. -/
theorem State.Naming.drop {a : Byte} {id : List Byte} (h : s.Naming) (hi : s.counted i = some (a, id))
    (counted : t.counted = Function.update s.counted i none) (lookup : t.lookup = Function.update s.lookup a none)
    (candidates : t.identities = s.identities) : t.Naming where
  index b j := by
    have ha : s.lookup a = some i := (h.index a i).mpr ⟨id, hi⟩
    rw [lookup, counted]
    by_cases hj : j = i
    · subst hj
      rw [Function.update_self]
      by_cases hb : b = a
      · rw [hb, Function.update_self]
        simp
      · rw [Function.update_of_ne hb, h.index, hi]
        simp [Ne.symm hb]
    · rw [Function.update_of_ne hj]
      by_cases hb : b = a
      · rw [hb, Function.update_self]
        simp only [reduceCtorEq, false_iff]
        intro e
        have := (h.index a j).mpr e
        rw [ha] at this
        exact hj (Option.some.inj this).symm
      · rw [Function.update_of_ne hb, h.index]
  identity j k b c id' hj hk := by
    rw [counted] at hj hk
    have ne : ∀ {l : SlotNo} {v}, Function.update s.counted i none l = some v → l ≠ i := fun e hl => by
      rw [hl, Function.update_self] at e
      cases e
    rw [Function.update_of_ne (ne hj)] at hj
    rw [Function.update_of_ne (ne hk)] at hk
    exact h.identity j k b c id' hj hk
  candidates := candidates ▸ h.candidates
  apart id' hid j b := by
    rw [counted]
    by_cases hj : j = i
    · rw [hj, Function.update_self]
      simp
    · rw [Function.update_of_ne hj]
      exact h.apart id' (candidates ▸ hid) j b

/-- A new record counts under an address and an identity that no other has. -/
theorem State.Naming.add {a : Byte} {id : List Byte} (h : s.Naming) (hi : s.counted i = none)
    (counted : t.counted = Function.update s.counted i (some (a, id)))
    (lookup : t.lookup = Function.update s.lookup a (some i)) (free : s.lookup a = none)
    (new : ∀ j b, s.counted j ≠ some (b, id)) (candidates : t.identities.Sublist s.identities)
    (gone : id ∉ t.identities) : t.Naming where
  index b j := by
    rw [lookup, counted]
    by_cases hj : j = i
    · subst hj
      rw [Function.update_self]
      by_cases hb : b = a
      · rw [hb, Function.update_self]
        simp
      · rw [Function.update_of_ne hb, h.index, hi]
        simp [Ne.symm hb]
    · rw [Function.update_of_ne hj]
      by_cases hb : b = a
      · rw [hb, Function.update_self, ← h.index, free]
        simp [Ne.symm hj]
      · rw [Function.update_of_ne hb, h.index]
  identity j k b c id' hj hk := by
    rw [counted] at hj hk
    by_cases hji : j = i <;> by_cases hki : k = i
    · rw [hji, hki]
    · rw [hji, Function.update_self] at hj
      rw [Function.update_of_ne hki] at hk
      cases hj
      exact absurd hk (new k c)
    · rw [hki, Function.update_self] at hk
      rw [Function.update_of_ne hji] at hj
      cases hk
      exact absurd hj (new j b)
    · rw [Function.update_of_ne hji] at hj
      rw [Function.update_of_ne hki] at hk
      exact h.identity j k b c id' hj hk
  candidates := h.candidates.sublist candidates
  apart id' hid j b := by
    rw [counted]
    by_cases hj : j = i
    · rw [hj, Function.update_self]
      intro e
      cases e
      exact gone hid
    · rw [Function.update_of_ne hj]
      exact h.apart id' (candidates.subset hid) j b

/-! ### Retirement -/

theorem State.carried_of_not_holds (h : s.holds i = false) : s.carried i = none := by
  unfold State.carried
  cases s.trunk.current with
  | none => rfl
  | some x => rw [h]; rfl

theorem Record.standing_eq (r : Record) : r.standing = ⟨r.state.isMember, r.state == .admitting,
    r.state == .retiring && r.dismissPending == some true,
    if r.state.counts then some (r.address, r.identity) else none⟩ := rfl

theorem Record.enteredRetirement_standing (r : Record) (cause : RetireCause) (kept gone : List BufNo)
    (stays dismiss : Bool) : (r.enteredRetirement cause kept gone stays dismiss).standing =
      ⟨false, false, stays && dismiss, if stays then some (r.address, r.identity) else none⟩ := by
  rw [Record.standing_eq]
  cases stays <;> cases dismiss <;> rfl

theorem Record.follows_enteredRetirement (r : Record) (cause : RetireCause) (kept gone : List BufNo)
    (stays dismiss : Bool) : r.Follows (r.enteredRetirement cause kept gone stays dismiss) :=
  ⟨rfl, fun e => (BitVec.or_eq_zero_iff.mp (BitVec.or_eq_zero_iff.mp e).1).1⟩

/-- A record that is neither RETIRING nor RETIRED leaves its list, and nothing more of the state than this says changes. -/
theorem State.enterRetirement_changes (hr : s.record i = some r) (hs : r.state ≠ .retired) (cause : RetireCause)
    (dismiss : Bool) :
    let t := s.enterRetirement i cause dismiss
    let r' := r.enteredRetirement cause (s.keptBuffers i r) (s.goneBuffers i r) (s.holds i || dismiss) dismiss
    t.record = Function.update s.record i (some r')
      ∧ (∀ ch, t.port ch = { s.port ch with changeList :=
          if ch = r.owner then changeListAfter (s.port ch).changeList i r r' else (s.port ch).changeList })
      ∧ t.pool = (s.freeAll (s.goneBuffers i r)).pool ∧ t.trunk = s.trunk ∧ t.adm = s.adm := by
  intro t r'
  obtain ⟨-, pool, own, other, trunk, adm, -⟩ :=
    State.retirement_parts i r r' (s.goneBuffers i r) t (State.enterRetirement_cases hr hs cause dismiss)
  refine ⟨State.record_of_slots (x := { s.slot i with record := some r' })
    (congrArg Registry.slots (State.registry_enterRetirement hr hs cause dismiss)), fun ch => ?_, pool, trunk, adm⟩
  by_cases hch : ch = r.owner
  · rw [if_pos hch, hch]
    exact own
  · rw [if_neg hch]
    have : ch = otherChannel r.owner := by revert hch; cases ch <;> cases r.owner <;> simp [otherChannel]
    rw [this]
    exact other

theorem State.Queues.not_marked {f : Standing → Bool} (hr : s.record i = some r) (h : f r.standing = false) :
    ¬ Marked f (s.standing i) := by
  rw [State.standing_some hr, Marked, Option.any_some, h]
  decide

theorem not_marked_some {f : Standing → Bool} {q : Standing} (h : f q = false) : ¬ Marked f (some q) := by
  rw [Marked, Option.any_some, h]
  decide

theorem State.Queues.leave (h : s.Queues) (hr : s.record i = some r) (hs : r.state ≠ .retiring)
    (hs' : r.state ≠ .retired) (cause : RetireCause) (dismiss : Bool) : (s.enterRetirement i cause dismiss).Queues := by
  set t := s.enterRetirement i cause dismiss with ht
  obtain ⟨record, -⟩ := State.enterRetirement_changes hr hs' cause dismiss
  have standing := State.standing_update record
  rw [Option.map_some, Record.enteredRetirement_standing] at standing
  rw [← ht] at standing
  have registry := State.registry_enterRetirement hr hs' cause dismiss
  obtain ⟨poll, -⟩ := State.retirement_parts i r _ _ t (State.enterRetirement_cases hr hs' cause dismiss)
  rw [State.leaveQueues_eq] at poll
  have inRing : i ∈ s.poll.ring ↔ r.state.isMember = true := by
    rw [h.ring.2, State.standing_some hr]
    exact Iff.rfl
  have ring : t.poll.ring = s.poll.ring.erase i := by
    rw [poll]
    dsimp only
    split
    · rfl
    · next out =>
      have : i ∉ s.poll.ring := fun hi => out ⟨inRing.mp hi, hi⟩
      exact (List.erase_of_not_mem this).symm
  have cursor : t.poll.cursor ≤ t.poll.ring.length := by
    have le := h.cursor
    rw [ring, poll]
    dsimp only
    split
    · next hi =>
      have length := List.length_erase_of_mem hi.2
      have idx := List.idxOf_lt_length_of_mem hi.2
      dsimp only
      split <;> omega
    · next out =>
      have : i ∉ s.poll.ring := fun hi => out ⟨inRing.mp hi, hi⟩
      rw [List.erase_of_not_mem this]
      exact le
  refine ⟨?_, cursor, ?_, ?_, ?_⟩
  · rw [ring, standing]
    exact h.ring.drop (not_marked_some rfl)
  · rw [registry, standing]
    exact h.free.keep (by simp [State.standing_some hr])
  · rw [registry, standing]
    dsimp only
    by_cases ha : r.state = .admitting
    · rw [if_pos ha]
      exact h.admits.drop (not_marked_some rfl)
    · rw [if_neg ha]
      exact h.admits.keep (iff_of_false (not_marked_some rfl)
        (State.Queues.not_marked hr (by simpa [Record.standing] using ha)))
  · rw [registry, standing]
    dsimp only
    have old : ¬ Marked Standing.dismissing (s.standing i) := State.Queues.not_marked hr (by simp [Record.standing, hs])
    cases dismiss
    · exact h.dismiss.keep (iff_of_false (not_marked_some (by simp)) old)
    · exact h.dismiss.join old (by simp [Marked])

theorem RecState.counts_of_ne_retired {x : RecState} (h : x ≠ .retired) : x.counts = true := by
  cases x <;> simp_all [RecState.counts]

theorem State.counted_of_ne_retired (hr : s.record i = some r) (hs : r.state ≠ .retired) :
    s.counted i = some (r.address, r.identity) := by
  rw [State.counted_some hr, if_pos (RecState.counts_of_ne_retired hs)]

theorem State.Naming.leave (h : s.Naming) (hr : s.record i = some r) (hs : r.state ≠ .retired) (cause : RetireCause)
    (dismiss : Bool) : (s.enterRetirement i cause dismiss).Naming := by
  obtain ⟨record, -, -, -, adm⟩ := State.enterRetirement_changes hr hs cause dismiss
  have counted := State.counted_update (State.standing_update record)
  rw [Option.map_some, Record.enteredRetirement_standing, Option.bind_some] at counted
  have hi := State.counted_of_ne_retired hr hs
  have index := congrArg Registry.addressIndex (State.registry_enterRetirement hr hs cause dismiss)
  have identities : (s.enterRetirement i cause dismiss).identities = s.identities := by
    rw [State.identities, adm]
    rfl
  cases stays : (s.holds i || dismiss)
  · rw [stays] at counted index
    exact h.drop hi counted (State.lookup_of_index index) identities
  · rw [stays] at counted index
    refine h.congr (counted.trans ?_) (funext fun a => ?_) (identities ▸ List.Sublist.refl _)
    · rw [if_pos rfl, ← hi, Function.update_eq_self]
    · rw [State.lookup, index]
      rfl

theorem State.Registered.enterRetirement (h : s.Registered) (hr : s.record i = some r) (hs : r.state ≠ .retiring)
    (hs' : r.state ≠ .retired) (cause : RetireCause) (dismiss : Bool) : (s.enterRetirement i cause dismiss).Registered := by
  obtain ⟨record, ports, -⟩ := State.enterRetirement_changes hr hs' cause dismiss
  refine ⟨h.records.update record ?_, h.queues.leave hr hs hs' cause dismiss, h.naming.leave hr hs' cause dismiss,
    h.posted.touch hr (Record.follows_enteredRetirement ..) record fun ch => by rw [ports]⟩
  refine (Record.ok_iff _).mpr (Record.Fits.entered ((Record.ok_iff r).mp (h.record_ok hr)) cause _ _ _ _ fun stays => ?_)
  have : s.holds i = false := by
    cases e : s.holds i
    · rfl
    · simp [e] at stays
  rw [State.carried_of_not_holds this]
  simp

/-- A RETIRING record whose dismissal is not pending, and whose buffers are gone, enters RETIRED. -/
theorem State.Registered.enterRetired (h : s.Registered) (hr : s.record i = some r) (hs : r.state = .retiring)
    (hd : r.dismissPending ≠ some true) (hq : r.outq = []) : (s.enterRetired i).Registered := by
  have hne : r.state ≠ .retired := by rw [hs]; decide
  rw [State.enterRetired_eq hr hne]
  set t := (s.touch i r r.retiredNow []).setIndex r.address none with ht
  have record : t.record = Function.update s.record i (some r.retiredNow) := s.record_touch_eq i r r.retiredNow []
  have standing := State.standing_update record
  have counted : t.counted = Function.update s.counted i none := State.counted_update standing
  have old : ∀ f : Standing → Bool, f ⟨false, false, false, some (r.address, r.identity)⟩ = false → ¬ Marked f (s.standing i) :=
    fun f e => State.Queues.not_marked hr (by
      rw [Record.standing_eq, hs, show (r.dismissPending == some true) = false by simpa using hd]
      exact e)
  refine ⟨h.records.update record ?_, ?_, ?_, ?_⟩
  · exact (Record.ok_iff _).mpr (((Record.ok_iff r).mp (h.record_ok hr)).retiredNow hs hq)
  · refine ⟨?_, ?_, ?_, ?_, ?_⟩
    · rw [standing, ht, State.setIndex_poll, State.touch_poll]
      exact h.queues.ring.keep (iff_of_false (not_marked_some rfl) (old _ rfl))
    · rw [ht, State.setIndex_poll, State.touch_poll]
      exact h.queues.cursor
    · rw [standing]
      exact h.queues.free.keep (by simp [State.standing_some hr])
    · rw [standing]
      exact h.queues.admits.keep (iff_of_false (not_marked_some rfl) (old _ rfl))
    · rw [standing]
      exact h.queues.dismiss.keep (iff_of_false (not_marked_some rfl) (old _ rfl))
  · refine h.naming.drop (State.counted_of_ne_retired hr hne) counted (State.lookup_of_index rfl) ?_
    rw [State.identities, ht, State.setIndex_adm, State.touch_adm]
    rfl
  · exact h.posted.touch hr r.follows_retiredNow record fun ch => s.changeList_touch i r r.retiredNow [] ch

end Sys2Proof.Machine
end

section
/-! The records and the registry's collections under the creation of a record, the outcomes of ADMIT and DISMISS, a slot
freed, and changes that leave every record where it stands. -/

namespace Sys2Proof.Machine

variable {s t : State} {i : SlotNo} {r r' : Record}

/-! ### Records that keep their reasons -/

theorem State.Posted.quiet (h : s.Posted) (hr : s.record i = some r) (owner : r'.owner = r.owner)
    (reasons : r'.reasons = r.reasons) (record : t.record = Function.update s.record i (some r'))
    (lists : ∀ ch, (t.port ch).changeList = (s.port ch).changeList) : t.Posted :=
  h.touch hr ⟨owner, fun e => reasons ▸ e⟩ record fun ch => by rw [lists, changeListAfter_of_reasons reasons, ite_self]

theorem Record.standing_counted (h : r'.state ≠ .retired) (address : r'.address = r.address)
    (identity : r'.identity = r.identity) : r'.standing.counted = some (r.address, r.identity) := by
  rw [Record.standing_eq, ← address, ← identity]
  exact if_pos (RecState.counts_of_ne_retired h)

/-- A record that goes to other queues, and keeps its address, its identity and its reasons. -/
theorem State.Registered.moved (h : s.Registered) (hr : s.record i = some r) (hs : r.state ≠ .retired)
    (hs' : r'.state ≠ .retired) (address : r'.address = r.address) (identity : r'.identity = r.identity)
    (owner : r'.owner = r.owner) (reasons : r'.reasons = r.reasons) (fits : r'.Fits)
    (record : t.record = Function.update s.record i (some r')) (queues : t.Queues) (lookup : t.lookup = s.lookup)
    (identities : t.identities = s.identities) (lists : ∀ ch, (t.port ch).changeList = (s.port ch).changeList) :
    t.Registered := by
  have counted := State.counted_update (State.standing_update record)
  rw [Option.map_some, Option.bind_some, Record.standing_counted hs' address identity,
    ← State.counted_of_ne_retired hr hs, Function.update_eq_self] at counted
  exact ⟨h.records.update record ((Record.ok_iff r').mpr fits), queues,
    h.naming.congr counted lookup (identities ▸ List.Sublist.refl _), h.posted.quiet hr owner reasons record lists⟩

theorem State.Registered.post (h : s.Registered) (i : SlotNo) (why : Reason) : (s.post i why).Registered := by
  cases hr : s.record i with
  | none => simpa [State.post, hr] using h
  | some r =>
    by_cases hs : r.state = .retired
    · rw [State.post_retired hr hs]
      exact h
    · rw [State.post_eq_touch hr hs]
      exact h.touch hr (r.follows_addReason why)
        ((Record.ok_iff _).mpr (Record.fits_addReason ((Record.ok_iff r).mp (h.record_ok hr)) why)) rfl []

/-! ### The outcome of ADMIT -/

theorem marked_some {f : Standing → Bool} {q : Standing} (h : f q = true) : Marked f (some q) := h

/-- An ADMITTING record that is confirmed joins the Ring (R14). -/
theorem State.Registered.confirm (h : s.Registered) (hr : s.record i = some r) (hs : r.state = .admitting)
    (record : t.record = Function.update s.record i (some r.confirmed)) (ring : t.poll.ring = s.poll.ring ++ [i])
    (cursor : t.poll.cursor = s.poll.cursor) (free : t.registry.freeSlots = s.registry.freeSlots)
    (admits : t.registry.admitQueue = s.registry.admitQueue.erase i)
    (dismiss : t.registry.dismissQueue = s.registry.dismissQueue) (lookup : t.lookup = s.lookup)
    (identities : t.identities = s.identities) (lists : ∀ ch, (t.port ch).changeList = (s.port ch).changeList) :
    t.Registered := by
  have standing := State.standing_update record
  have old : ∀ f : Standing → Bool, f ⟨false, true, false, some (r.address, r.identity)⟩ = false →
      ¬ Marked f (s.standing i) := fun f e => State.Queues.not_marked hr (by
    rw [Record.standing_eq, hs]
    exact e)
  refine h.moved (r' := r.confirmed) hr (by rw [hs]; decide) (fun e => nomatch (show RecState.active = .retired from e)) rfl rfl rfl rfl
    (((Record.ok_iff r).mp (h.record_ok hr)).confirmed hs) record ⟨?_, ?_, ?_, ?_, ?_⟩ lookup identities lists
  · rw [standing, ring]
    exact h.queues.ring.join (old _ rfl) (marked_some rfl)
  · rw [cursor, ring, List.length_append]
    exact h.queues.cursor.trans (Nat.le_add_right ..)
  · rw [standing, free]
    exact h.queues.free.keep (by simp [State.standing_some hr])
  · rw [standing, admits]
    exact h.queues.admits.drop (not_marked_some rfl)
  · rw [standing, dismiss]
    exact h.queues.dismiss.keep (iff_of_false (not_marked_some rfl) (old _ rfl))

/-- An ADMITTING record that is tried again goes to the tail of the Admit Queue (R15). -/
theorem State.Registered.requeue (h : s.Registered) (hr : s.record i = some r) (hs : r.state = .admitting) {n : Nat}
    (hn : n ≤ 2) (record : t.record = Function.update s.record i (some { r with admitAttempts := some n }))
    (poll : t.poll = s.poll) (free : t.registry.freeSlots = s.registry.freeSlots)
    (admits : t.registry.admitQueue = s.registry.admitQueue.erase i ++ [i])
    (dismiss : t.registry.dismissQueue = s.registry.dismissQueue) (lookup : t.lookup = s.lookup)
    (identities : t.identities = s.identities) (lists : ∀ ch, (t.port ch).changeList = (s.port ch).changeList) :
    t.Registered := by
  have same := State.standing_same record hr rfl
  have hne : r.state ≠ .retired := by rw [hs]; decide
  refine h.moved (r' := { r with admitAttempts := some n }) hr hne hne rfl rfl rfl rfl
    (((Record.ok_iff r).mp (h.record_ok hr)).attempt hs hn) record
    ⟨?_, ?_, ?_, ?_, ?_⟩ lookup identities lists
  · rw [same, poll]
    exact h.queues.ring
  · rw [poll]
    exact h.queues.cursor
  · rw [same, free]
    exact h.queues.free
  · rw [State.standing_update record, admits]
    refine h.queues.admits.requeue (marked_some ?_)
    rw [Record.standing_eq]
    dsimp only
    rw [hs]
    rfl
  · rw [same, dismiss]
    exact h.queues.dismiss

/-- A DISMISS frame sent: the record leaves the Dismissal Queue (R10, R84). -/
theorem State.Registered.dismissed (h : s.Registered) (hr : s.record i = some r) (hs : r.state = .retiring)
    (record : t.record = Function.update s.record i (some { r with dismissPending := some false }))
    (poll : t.poll = s.poll) (free : t.registry.freeSlots = s.registry.freeSlots)
    (admits : t.registry.admitQueue = s.registry.admitQueue)
    (dismiss : t.registry.dismissQueue = s.registry.dismissQueue.erase i) (lookup : t.lookup = s.lookup)
    (identities : t.identities = s.identities) (lists : ∀ ch, (t.port ch).changeList = (s.port ch).changeList) :
    t.Registered := by
  have standing := State.standing_update record
  have hne : r.state ≠ .retired := by rw [hs]; decide
  have new : ∀ f : Standing → Bool, f ⟨false, false, false, some (r.address, r.identity)⟩ = false →
      ¬ Marked f (Option.map Record.standing (some { r with dismissPending := some false })) := fun f e =>
    not_marked_some (by
      rw [Record.standing_eq]
      dsimp only
      rw [hs]
      exact e)
  refine h.moved (r' := { r with dismissPending := some false }) hr hne hne rfl rfl rfl rfl
    (((Record.ok_iff r).mp (h.record_ok hr)).dismissed hs) record
    ⟨?_, ?_, ?_, ?_, ?_⟩ lookup identities lists
  · rw [standing, poll]
    exact h.queues.ring.keep (iff_of_false (new _ rfl) (State.Queues.not_marked hr (by rw [Record.standing_eq, hs]; rfl)))
  · rw [poll]
    exact h.queues.cursor
  · rw [standing, free]
    exact h.queues.free.keep (by simp [State.standing_some hr])
  · rw [standing, admits]
    exact h.queues.admits.keep (iff_of_false (new _ rfl) (State.Queues.not_marked hr (by rw [Record.standing_eq, hs]; rfl)))
  · rw [standing, dismiss]
    exact h.queues.dismiss.drop (new _ rfl)

/-! ### A new record -/

theorem State.Queues.free_slot {rest : List SlotNo} (h : s.Queues) (hf : s.registry.freeSlots = i :: rest) :
    s.standing i = none := (h.free.2 i).mp (by rw [hf]; exact List.mem_cons_self ..)

/-- A record is created in a free slot, with an address and an identity that no record and no other candidate has. -/
theorem State.Registered.create (h : s.Registered) (hi : s.standing i = none) (fits : r.Fits) (hs : r.state ≠ .retired)
    (reasons : r.reasons = 0) (record : t.record = Function.update s.record i (some r))
    (lookup : t.lookup = Function.update s.lookup r.address (some i)) (queues : t.Queues)
    (free : s.lookup r.address = none) (new : ∀ j b, s.counted j ≠ some (b, r.identity))
    (identities : t.identities = s.identities.filter fun id => id ≠ r.identity)
    (lists : ∀ ch, (t.port ch).changeList = (s.port ch).changeList) : t.Registered := by
  have counted := State.counted_update (State.standing_update record)
  rw [Option.map_some, Option.bind_some, Record.standing_counted hs rfl rfl] at counted
  refine ⟨h.records.update record ((Record.ok_iff r).mpr fits), queues,
    h.naming.add ?_ counted lookup free new (identities ▸ List.filter_sublist) (by rw [identities]; simp), fun ch => ?_⟩
  · rw [State.counted, hi]
    rfl
  · rw [lists, record]
    refine (h.posted ch).keep (iff_of_false ?_ ?_)
    · rw [listed_some]
      exact fun e => e.2 reasons
    · rw [State.standing_eq_none.mp hi]
      simp [Listed]

/-- ENROL's record joins the Ring (R4, R39). -/
theorem State.Registered.enrolled {rest : List SlotNo} (h : s.Registered) (hf : s.registry.freeSlots = i :: rest)
    {address : Byte} {identity : List Byte} (ha : within 1 address.toNat 254 = true)
    (hid : within 1 identity.length 16 = true) (cls : Class) (owner : Channel) (free : s.lookup address = none)
    (new : ∀ j b, s.counted j ≠ some (b, identity)) : State.Registered { s with
      registry := { s.registry with
        slots := s.registry.slots.set i
          { gen := (s.slot i).gen + 1, record := some (Record.fresh .active address identity cls owner) }
        addressIndex := s.registry.addressIndex.set address.toFin (some i)
        freeSlots := rest }
      poll := { s.poll with ring := s.poll.ring ++ [i] }
      adm := { s.adm with candidates := s.adm.candidates.filter fun c => c.identity ≠ identity } } := by
  have hi := h.queues.free_slot hf
  have old : ∀ f : Standing → Bool, ¬ Marked f (s.standing i) := fun f => by simp [hi, Marked]
  have record : State.record { s with
      registry := { s.registry with
        slots := s.registry.slots.set i
          { gen := (s.slot i).gen + 1, record := some (Record.fresh .active address identity cls owner) }
        addressIndex := s.registry.addressIndex.set address.toFin (some i)
        freeSlots := rest }
      poll := { s.poll with ring := s.poll.ring ++ [i] }
      adm := { s.adm with candidates := s.adm.candidates.filter fun c => c.identity ≠ identity } } = _ :=
    State.record_of_slots rfl
  have standing := State.standing_update record
  refine h.create hi (Record.fits_fresh (.inl rfl) ha hid cls owner) (by decide : RecState.active ≠ .retired) rfl record
    (State.lookup_of_index rfl) ⟨?_, ?_, ?_, ?_, ?_⟩ free new ?_ fun ch => by cases ch <;> rfl
  · rw [standing]
    exact h.queues.ring.join (old _) (marked_some rfl)
  · exact h.queues.cursor.trans (by simp)
  · rw [standing]
    exact (hf ▸ h.queues.free).dropHead (by simp)
  · rw [standing]
    exact h.queues.admits.keep (iff_of_false (not_marked_some rfl) (old _))
  · rw [standing]
    exact h.queues.dismiss.keep (iff_of_false (not_marked_some rfl) (old _))
  · simp only [State.identities, List.filter_map]
    rfl

/-- An ADMITTING record joins the Admit Queue, and the identity's candidate goes (R144). -/
theorem State.Registered.admitted {rest : List SlotNo} (h : s.Registered) (hf : s.registry.freeSlots = i :: rest)
    {address : Byte} {identity : List Byte} (ha : within 1 address.toNat 254 = true)
    (hid : within 1 identity.length 16 = true) (cls : Class) (owner : Channel) (free : s.lookup address = none)
    (new : ∀ j b, s.counted j ≠ some (b, identity)) : (s.admitted identity cls owner address i rest).Registered := by
  have hi := h.queues.free_slot hf
  have old : ∀ f : Standing → Bool, ¬ Marked f (s.standing i) := fun f => by simp [hi, Marked]
  have record : (s.admitted identity cls owner address i rest).record = _ := State.record_of_slots rfl
  have standing := State.standing_update record
  refine h.create hi (Record.fits_fresh (.inr rfl) ha hid cls owner) (by decide : RecState.admitting ≠ .retired) rfl record
    (State.lookup_of_index rfl) ⟨?_, h.queues.cursor, ?_, ?_, ?_⟩ free new ?_ fun ch => by cases ch <;> rfl
  · rw [standing]
    exact h.queues.ring.keep (iff_of_false (not_marked_some rfl) (old _))
  · rw [standing]
    exact (hf ▸ h.queues.free).dropHead (by simp)
  · rw [standing]
    exact h.queues.admits.join (old _) (marked_some rfl)
  · rw [standing]
    exact h.queues.dismiss.keep (iff_of_false (not_marked_some rfl) (old _))
  · simp only [State.admitted, State.identities, List.filter_map]
    rfl

/-! ### A slot freed -/

/-- A RETIRED record taken from its Change List becomes FREE (R24, R181). -/
theorem State.Registered.freeSlot (h : s.Registered) (hr : s.record i = some r) (hs : r.state = .retired)
    (record : t.record = Function.update s.record i none) (poll : t.poll = s.poll)
    (free : t.registry.freeSlots = s.registry.freeSlots ++ [i]) (admits : t.registry.admitQueue = s.registry.admitQueue)
    (dismiss : t.registry.dismissQueue = s.registry.dismissQueue) (lookup : t.lookup = s.lookup)
    (identities : t.identities = s.identities)
    (lists : ∀ ch, (t.port ch).changeList = if ch = r.owner then (s.port ch).changeList.erase i else (s.port ch).changeList) :
    t.Registered := by
  have standing := State.standing_update record
  have hst : s.standing i = some ⟨false, false, false, none⟩ := by
    rw [State.standing_some hr, Record.standing_eq, hs]
    rfl
  have none_marked : ∀ f : Standing → Bool, ¬ Marked f (Option.map Record.standing none) := fun f => by simp [Marked]
  have old : ∀ f : Standing → Bool, f ⟨false, false, false, none⟩ = false → ¬ Marked f (s.standing i) := fun f e => by
    rw [hst]
    exact not_marked_some e
  refine ⟨h.records.update record rfl, ⟨?_, ?_, ?_, ?_, ?_⟩, ?_, fun ch => ?_⟩
  · rw [standing, poll]
    exact h.queues.ring.keep (iff_of_false (none_marked _) (old _ rfl))
  · rw [poll]
    exact h.queues.cursor
  · rw [standing, free]
    exact h.queues.free.join (by simp [hst]) rfl
  · rw [standing, admits]
    exact h.queues.admits.keep (iff_of_false (none_marked _) (old _ rfl))
  · rw [standing, dismiss]
    exact h.queues.dismiss.keep (iff_of_false (none_marked _) (old _ rfl))
  · refine h.naming.congr ?_ lookup (identities ▸ List.Sublist.refl _)
    rw [State.counted_update standing]
    have : s.counted i = none := by rw [State.counted, hst]; rfl
    rw [Option.map_none, Option.bind_none, ← this, Function.update_eq_self]
  · rw [lists, record]
    have none_listed : ¬ Listed ch none := by simp [Listed]
    split
    · exact (h.posted ch).drop none_listed
    · next hch =>
      refine (h.posted ch).keep (iff_of_false none_listed ?_)
      rw [hr, listed_some]
      exact fun e => hch e.1.symm

/-! ### Every record changed where it stands -/

/-- A record stands where another stands: for the registry's collections, the exchange and the buffers they are one. -/
structure Record.Alike (r r' : Record) : Prop where
  standing : r'.standing = r.standing
  retiring : r'.state = .retiring ↔ r.state = .retiring
  dismiss : r'.dismissPending = r.dismissPending
  outq : r'.outq = r.outq

/-- Every slot's record stands where it stood. -/
def State.Alike (s t : State) : Prop := ∀ i, Option.Rel Record.Alike (s.record i) (t.record i)

theorem Record.Alike.refl (r : Record) : r.Alike r := ⟨rfl, Iff.rfl, rfl, rfl⟩

theorem Option.rel_cases {α β : Type} {p : α → β → Prop} {a : Option α} {b : Option β} (h : Option.Rel p a b) :
    a = none ∧ b = none ∨ ∃ x y, a = some x ∧ b = some y ∧ p x y := by
  cases h with
  | none => exact .inl ⟨rfl, rfl⟩
  | some e => exact .inr ⟨_, _, rfl, rfl, e⟩

theorem State.Alike.standing (h : s.Alike t) : t.standing = s.standing := by
  funext i
  rcases Option.rel_cases (h i) with ⟨hs, ht⟩ | ⟨r, r', hs, ht, e⟩
  · rw [State.standing, State.standing, hs, ht]
  · rw [State.standing_some hs, State.standing_some ht, e.standing]

theorem State.Alike.outq (h : s.Alike t) : t.outq = s.outq := by
  funext i
  rcases Option.rel_cases (h i) with ⟨hs, ht⟩ | ⟨r, r', hs, ht, e⟩
  · rw [State.outq, State.outq, hs, ht]
  · rw [State.outq_some hs, State.outq_some ht, e.outq]

theorem State.Alike.some (h : s.Alike t) (hr : t.record i = some r') : ∃ r, s.record i = some r ∧ r.Alike r' := by
  rcases Option.rel_cases (h i) with ⟨-, ht⟩ | ⟨r, q, hs, ht, e⟩
  · rw [hr] at ht
    cases ht
  · rw [hr] at ht
    cases ht
    exact ⟨r, hs, e⟩

/-- One record changed where it stands. -/
theorem State.alike_update (hr : s.record i = some r) (record : t.record = Function.update s.record i (some r'))
    (e : r.Alike r') : s.Alike t := fun j => by
  rw [record]
  by_cases hj : j = i
  · rw [hj, Function.update_self, hr]
    exact .some e
  · rw [Function.update_of_ne hj]
    cases s.record j
    · exact .none
    · exact .some (.refl _)

end Sys2Proof.Machine
end

section
/-! Sound states under the operations that host commands are made of, while an exchange may be in progress: records that
stay where they stand, retirement, creation, slots freed, and candidates. -/

namespace Sys2Proof.Machine

variable {s t : State} {i : SlotNo} {r r' : Record} {x : Exchange}

/-! ### What the Current Exchange holds -/

theorem State.holds_iff : s.holds i = true ↔ ∃ x h, s.trunk.current = some x ∧ x.target = some h ∧ h.slot = i := by
  unfold State.holds
  cases s.trunk.current with
  | none => simp
  | some x =>
    obtain ⟨kind, target, ns, ob, rs⟩ := x
    cases target <;> simp

theorem State.carried_iff {b : BufNo} :
    s.carried i = some b ↔ s.holds i = true ∧ ∃ x, s.trunk.current = some x ∧ x.outbound = some b := by
  unfold State.carried
  cases s.trunk.current with
  | none => simp
  | some x => cases s.holds i <;> simp

/-- An exchange without a target holds nothing. -/
theorem State.not_holds (h : ∀ x, s.trunk.current = some x → x.target = none) : s.holds i = false := by
  by_contra hne
  obtain ⟨x, g, hx, ht, -⟩ := State.holds_iff.mp (by simpa using hne)
  rw [h x hx] at ht
  cases ht

theorem Exchange.target_of_released (h : x.released = x) : x.target = none := by
  rw [← h]
  rfl

/-- The carried buffer is at the head of its record's outbound queue (R87). -/
theorem State.Phase.carried (ok : s.Phase) {b : BufNo} (hc : s.carried i = some b) :
    ∃ r, s.record i = some r ∧ r.outq.head? = some b := by
  obtain ⟨holds, x, hx, hb⟩ := State.carried_iff.mp hc
  obtain ⟨y, h, hy, ht, hi⟩ := State.holds_iff.mp holds
  rw [hx] at hy
  cases hy
  cases ok with
  | rest _ n => simp [hx] at n
  | guard _ y hy rel =>
    rw [hx] at hy
    cases hy
    rw [Exchange.target_of_released rel] at ht
    cases ht
  | live y _ hy target =>
    rw [hx] at hy
    cases hy
    cases target with
    | data g r c _ htg _ record _ _ outbound head =>
      rw [hb] at outbound
      rw [ht] at htg
      cases outbound
      cases htg
      exact ⟨r, hi ▸ record, head⟩
    | invite _ rel =>
      rw [Exchange.target_of_released rel] at ht
      cases ht
    | poll _ _ _ _ _ _ _ _ outbound => simp [hb] at outbound
    | admits _ _ _ _ _ _ _ _ outbound => simp [hb] at outbound
    | dismiss _ _ _ _ _ _ outbound => simp [hb] at outbound

/-- What an exchange in progress needs of the records: a record keeps its handle, the one held stays in the states that
the exchange allows and keeps its carried buffer in front, and the Dismissal Queue keeps its head. -/
structure State.Keeps (s t : State) : Prop where
  handle : ∀ i r, s.record i = some r → t.handle i = s.handle i
  record : ∀ i r, s.record i = some r → s.holds i = true → ∃ r', t.record i = some r'
    ∧ (r.state.isMember = true ∨ r.state = .retiring → r'.state.isMember = true ∨ r'.state = .retiring)
    ∧ (r.state = .admitting ∨ r.state = .retiring → r'.state = .admitting ∨ r'.state = .retiring)
    ∧ ∀ b, s.carried i = some b → r.outq.head? = some b → r'.outq.head? = some b
  dismiss : ∀ i, s.registry.dismissQueue.head? = some i → t.registry.dismissQueue.head? = some i

theorem State.Queues.dismissing (h : s.Queues) (hd : s.registry.dismissQueue.head? = some i) :
    ∃ r, s.record i = some r := by
  have marked := (h.dismiss.2 i).mp (List.mem_of_head? hd)
  cases hr : s.record i with
  | none =>
    rw [State.standing_eq_none.mpr hr] at marked
    cases marked
  | some r => exact ⟨r, rfl⟩

theorem State.Target.keeps (k : s.Keeps t) (queues : s.Queues) (hx : s.trunk.current = some x) (ok : s.Target x) :
    t.Target x := by
  have holds : ∀ {h : Handle}, x.target = some h → s.holds h.slot = true := fun ht =>
    State.holds_iff.mpr ⟨x, _, hx, ht, rfl⟩
  cases ok with
  | invite kind released => exact .invite kind released
  | poll h r kind target handle record state sent outbound =>
    obtain ⟨r', record', member, -, -⟩ := k.record _ _ record (holds target)
    exact .poll h r' kind target (handle.trans (k.handle _ _ record).symm) record' (member state) sent outbound
  | data h r b kind target handle record state sent outbound head =>
    obtain ⟨r', record', member, -, carried⟩ := k.record _ _ record (holds target)
    exact .data h r' b kind target (handle.trans (k.handle _ _ record).symm) record' (member state) sent outbound
      (carried b (State.carried_iff.mpr ⟨holds target, x, hx, outbound⟩) head)
  | admits h r kind target handle record state sent outbound reserved =>
    obtain ⟨r', record', -, admitting, -⟩ := k.record _ _ record (holds target)
    exact .admits h r' kind target (handle.trans (k.handle _ _ record).symm) record' (admitting state) sent outbound
      reserved
  | dismiss h kind target handle head sent outbound reserved =>
    obtain ⟨r, record⟩ := queues.dismissing head
    exact .dismiss h kind target (handle.trans (k.handle _ _ record).symm) (k.dismiss _ head) sent outbound reserved

theorem State.Phase.keeps (ok : s.Phase) (k : s.Keeps t) (queues : s.Queues)
    (line : t.trunk.line = s.trunk.line) (current : t.trunk.current = s.trunk.current) : t.Phase := by
  cases ok with
  | rest l n => exact .rest (line ▸ l) (current.trans n)
  | guard l x c rel => exact .guard (line.trans l) x (current.trans c) rel
  | live x l c target => exact .live x (line ▸ l) (current.trans c) (target.keeps k queues c)

/-! ### Records that stay where they stand -/

theorem State.Alike.held (h : s.Alike t) (ok : s.Held) (current : t.trunk.current = s.trunk.current) : t.Held := by
  intro i r' hr' hs
  obtain ⟨r, hr, e⟩ := h.some hr'
  rw [State.holds_of_current current, State.carried_of_current current, e.dismiss, e.outq]
  exact ok i r hr (e.retiring.mp hs)

theorem Record.Alike.member (e : r.Alike r') : r'.state.isMember = r.state.isMember := congrArg Standing.member e.standing

theorem Record.Alike.admitting (e : r.Alike r') : r'.state = .admitting ↔ r.state = .admitting := by
  have := congrArg Standing.admitting e.standing
  rw [Record.standing_eq, Record.standing_eq] at this
  rw [← beq_iff_eq, ← beq_iff_eq (a := r.state), show (r'.state == _) = _ from this]

theorem State.Alike.keeps (h : s.Alike t) (gens : ∀ i, (t.slot i).gen = (s.slot i).gen)
    (dismiss : t.registry.dismissQueue = s.registry.dismissQueue) : s.Keeps t where
  handle i _ _ := by rw [State.handle, gens]; rfl
  record i r hr _ := by
    rcases Option.rel_cases (h i) with ⟨hn, -⟩ | ⟨q, r', hq, hr', e⟩
    · rw [hr] at hn
      cases hn
    · rw [hr] at hq
      cases hq
      exact ⟨r', hr', by rw [e.member, e.retiring]; exact id, by rw [e.admitting, e.retiring]; exact id,
        fun b _ hb => e.outq ▸ hb⟩
  dismiss i hi := dismiss ▸ hi

/-- Every record stays where it stands. -/
theorem State.Sane.alike (ok : s.Sane) (h : s.Alike t) (gens : ∀ i, (t.slot i).gen = (s.slot i).gen)
    (records : t.RecordsOk) (posted : t.Posted) (ring : t.poll.ring = s.poll.ring)
    (cursor : t.poll.cursor ≤ t.poll.ring.length) (free : t.registry.freeSlots = s.registry.freeSlots)
    (admits : t.registry.admitQueue = s.registry.admitQueue) (dismiss : t.registry.dismissQueue = s.registry.dismissQueue)
    (lookup : t.lookup = s.lookup) (adm : t.adm = s.adm) (trunk : t.trunk.line = s.trunk.line
      ∧ t.trunk.current = s.trunk.current ∧ t.trunk.hunt = s.trunk.hunt) (pool : t.pool = s.pool)
    (queues : ∀ ch, (t.port ch).deliveryQueue = (s.port ch).deliveryQueue) : t.Sane := by
  obtain ⟨line, current, hunt⟩ := trunk
  refine ⟨⟨records, ok.registered.queues.congr h.standing ring cursor free admits dismiss,
    ok.registered.naming.congr (State.counted_of_standing h.standing) lookup ?_, posted⟩,
    ok.stored.of_store ?_, h.held ok.held current,
    ok.phase.keeps (h.keeps gens dismiss) ok.registered.queues line current, ok.hunt.congr line hunt⟩
  · rw [State.identities, adm]
    exact List.Sublist.refl _
  · rw [State.store, State.store, h.outq, current, pool]
    simp only [queues]

/-- One record changed where it stands, with its reasons. -/
theorem State.Sane.setRecord (ok : s.Sane) (hr : s.record i = some r) (e : r.Alike r') (fits : r'.Fits)
    (owner : r'.owner = r.owner) (reasons : r'.reasons = r.reasons) : (s.setRecord i (some r')).Sane := by
  have record := s.record_setRecord_eq i (some r')
  exact ok.alike (State.alike_update hr record e) (fun j => s.gen_setRecord i j _)
    (ok.registered.records.update record ((Record.ok_iff r').mpr fits))
    (ok.registered.posted.quiet hr owner reasons record fun ch => by simp) rfl ok.registered.queues.cursor rfl rfl rfl rfl
    rfl ⟨rfl, rfl, rfl⟩ rfl fun ch => by simp

/-- A touch of a record that stays where it stands, with no buffer given back. -/
theorem State.Sane.touch (ok : s.Sane) (hr : s.record i = some r) (k : r.Follows r') (e : r.Alike r') (fits : r'.Fits) :
    (s.touch i r r' []).Sane := by
  have record := s.record_touch_eq i r r' []
  refine ok.alike (State.alike_update hr record e) (fun j => s.gen_touch i j r r' [])
    (ok.registered.records.update record ((Record.ok_iff r').mpr fits))
    (ok.registered.posted.touch hr k record (s.changeList_touch i r r' [])) (by rw [State.touch_poll]) ?_
    rfl rfl rfl rfl (State.touch_adm ..) ?_ (State.touch_pool ..) (s.deliveryQueue_touch i r r' [])
  · rw [State.touch_poll]
    exact ok.registered.queues.cursor
  · rw [State.touch_trunk]
    exact ⟨rfl, rfl, rfl⟩

theorem State.Registered.fits (h : s.Registered) (hr : s.record i = some r) : r.Fits :=
  (Record.ok_iff r).mp (h.record_ok hr)

theorem Record.alike_addReason (r : Record) (why : Reason) : r.Alike (r.addReason why) := ⟨rfl, Iff.rfl, rfl, rfl⟩

theorem State.Sane.post (ok : s.Sane) (i : SlotNo) (why : Reason) : (s.post i why).Sane := by
  cases hr : s.record i with
  | none => simpa [State.post, hr] using ok
  | some r =>
    by_cases hs : r.state = .retired
    · rw [State.post_retired hr hs]
      exact ok
    · rw [State.post_eq_touch hr hs]
      exact ok.touch hr (r.follows_addReason why) (r.alike_addReason why)
        (Record.fits_addReason (ok.registered.fits hr) why)

/-- A present hold ends (R122, R128). -/
theorem State.Sane.endHold (ok : s.Sane) (i : SlotNo) : (s.endHold i).Sane := by
  unfold State.endHold
  refine State.Sane.post ?_ i _
  cases hr : s.record i with
  | none => rwa [State.updRecord_none _ _ hr]
  | some r =>
    rw [State.updRecord_some _ _ hr]
    exact ok.setRecord hr ⟨rfl, Iff.rfl, rfl, rfl⟩ ((ok.registered.fits hr).setHold .none fun _ => rfl) rfl rfl

/-! ### Retirement -/

theorem List.filter_eq_of_nodup {α : Type} [DecidableEq α] {l : List α} (h : l.Nodup) {o : Option α}
    (ho : ∀ a, o = some a → a ∈ l) : l.filter (fun a => o = some a) = o.toList := by
  cases o with
  | none => simp
  | some a =>
    have count : l.count a = 1 := List.count_eq_one_of_mem h (ho a rfl)
    have : (fun b => decide (some a = some b)) = fun b => b == a := by
      funext b
      by_cases e : a = b
      · simp [e]
      · simp [e, Ne.symm e]
    rw [this, List.filter_beq, count]
    rfl

theorem State.keptBuffers_eq (nodup : r.outq.Nodup) (hc : ∀ b, s.carried i = some b → b ∈ r.outq) :
    s.keptBuffers i r = (s.carried i).toList := List.filter_eq_of_nodup nodup hc

theorem State.Held.enterRetirement (ok : s.Held) (hr : s.record i = some r) (hs : r.state ≠ .retired)
    (nodup : r.outq.Nodup) (hc : ∀ b, s.carried i = some b → b ∈ r.outq) (cause : RetireCause) (dismiss : Bool) :
    (s.enterRetirement i cause dismiss).Held := by
  obtain ⟨record, -, -, trunk, -⟩ := State.enterRetirement_changes hr hs cause dismiss
  have holds : (s.enterRetirement i cause dismiss).holds = s.holds := State.holds_of_current (by rw [trunk])
  have carried : (s.enterRetirement i cause dismiss).carried = s.carried := State.carried_of_current (by rw [trunk])
  intro j q hq hstate
  rw [holds, carried]
  rw [record] at hq
  by_cases hj : j = i
  · subst hj
    rw [Function.update_self] at hq
    cases hq
    rw [← State.keptBuffers_eq nodup hc]
    refine ⟨?_, rfl⟩
    cases dismiss <;> cases hh : s.holds j <;> simp [Record.enteredRetirement, hh] at hstate ⊢
  · rw [Function.update_of_ne hj] at hq
    exact ok j q hq hstate

theorem State.Stored.enterRetirement (ok : s.Stored) (hr : s.record i = some r) (hs : r.state ≠ .retired)
    (cause : RetireCause) (dismiss : Bool) : (s.enterRetirement i cause dismiss).Stored := by
  obtain ⟨record, ports, pool, trunk, -⟩ := State.enterRetirement_changes hr hs cause dismiss
  have hq : s.outq i = r.outq := State.outq_some hr
  have nodup : r.outq.Nodup := hq ▸ (ok.queued i).1
  refine ok.release_touched hr record pool (fun ch => by rw [ports]) (nodup.filter _)
    (fun b hb => .inl (List.mem_filter.mp hb).1) (nodup.filter _) (fun b => ?_) fun b => ?_
  · simp [Record.enteredRetirement, State.keptBuffers, State.goneBuffers]
    tauto
  · rw [State.reservedBuffer, trunk]
    refine ⟨fun hb => ⟨hb, fun gone => ?_⟩, fun hb => hb.1⟩
    exact ok.not_reserved (i := i) (hq ▸ (List.mem_filter.mp gone).1) hb

/-- The record of a slot, with the record in another. -/
theorem Function.update_some_of_ne {α β : Type} [DecidableEq α] {f : α → Option β} {a b : α} {v : Option β} {w : β}
    (h : Function.update f a v b = some w) (hv : v ≠ some w) : b ≠ a ∧ f b = some w := by
  by_cases hb : b = a
  · rw [hb, Function.update_self] at h
    exact absurd h hv
  · exact ⟨hb, by rwa [Function.update_of_ne hb] at h⟩

theorem State.handle_enterRetirement (hr : s.record i = some r) (hs : r.state ≠ .retired) (cause : RetireCause)
    (dismiss : Bool) (j : SlotNo) : (s.enterRetirement i cause dismiss).handle j = s.handle j := by
  have registry := congrArg Registry.slots (State.registry_enterRetirement hr hs cause dismiss)
  have slot : (s.enterRetirement i cause dismiss).slot j = (s.setRecord i (some (r.enteredRetirement cause
      (s.keptBuffers i r) (s.goneBuffers i r) (s.holds i || dismiss) dismiss))).slot j := by
    rw [State.slot, registry]
    rfl
  rw [State.handle, slot, State.gen_setRecord]
  rfl

/-- RETIRE, in whatever the line is doing (R27). -/
theorem State.Sane.enterRetirement (ok : s.Sane) (hr : s.record i = some r) (hs : r.state ≠ .retiring)
    (hs' : r.state ≠ .retired) (cause : RetireCause) (dismiss : Bool) : (s.enterRetirement i cause dismiss).Sane := by
  obtain ⟨record, -, -, trunk, -⟩ := State.enterRetirement_changes hr hs' cause dismiss
  have nodup : r.outq.Nodup := State.outq_some hr ▸ (ok.stored.queued i).1
  have carried : ∀ b, s.carried i = some b → r.outq.head? = some b := fun b hb => by
    obtain ⟨q, hq, head⟩ := ok.phase.carried hb
    rw [hr] at hq
    cases hq
    exact head
  have mem : ∀ b, s.carried i = some b → b ∈ r.outq := fun b hb => List.mem_of_head? (carried b hb)
  have keeps : s.Keeps (s.enterRetirement i cause dismiss) := by
    refine ⟨fun j _ _ => State.handle_enterRetirement hr hs' cause dismiss j, fun j q hq holds => ?_, fun j hj => ?_⟩
    · rw [record]
      by_cases hji : j = i
      · subst hji
        rw [Function.update_self]
        refine ⟨_, rfl, fun _ => .inr ?_, fun _ => .inr ?_, fun b hb _ => ?_⟩
        · simp [Record.enteredRetirement, holds]
        · simp [Record.enteredRetirement, holds]
        · show (s.keptBuffers j r).head? = some b
          rw [State.keptBuffers_eq nodup mem, hb]
          rfl
      · rw [Function.update_of_ne hji]
        exact ⟨q, hq, id, id, fun _ _ => id⟩
    · rw [State.registry_enterRetirement hr hs' cause dismiss]
      dsimp only
      split
      · rw [List.head?_append, hj]
        rfl
      · exact hj
  exact ⟨ok.registered.enterRetirement hr hs hs' cause dismiss, ok.stored.enterRetirement hr hs' cause dismiss,
    ok.held.enterRetirement hr hs' nodup mem cause dismiss,
    ok.phase.keeps keeps ok.registered.queues (by rw [trunk]) (by rw [trunk]),
    ok.hunt.congr (by rw [trunk]) (by rw [trunk])⟩

/-! ### Creation, and slots freed -/

/-- A slot gets or loses a record that has no buffer and is not RETIRING, while the exchange holds another. -/
theorem State.Sane.replace {o : Option Record} (ok : s.Sane) (registered : t.Registered)
    (record : t.record = Function.update s.record i o) (handle : ∀ j, j ≠ i → t.handle j = s.handle j)
    (here : ∀ r, s.record i = some r → t.handle i = s.handle i) (outq : s.outq i = [])
    (new : ∀ r', o = some r' → r'.outq = [] ∧ r'.state ≠ .retiring) (free : s.holds i = false)
    (dismiss : t.registry.dismissQueue = s.registry.dismissQueue) (trunk : t.trunk = s.trunk) (pool : t.pool = s.pool)
    (queues : ∀ ch, (t.port ch).deliveryQueue = (s.port ch).deliveryQueue) : t.Sane := by
  have outqs : t.outq = s.outq := by
    rw [State.outq_update record]
    have : (o.map Record.outq).getD [] = s.outq i := by
      rw [outq]
      cases o with
      | none => rfl
      | some r' => exact (new r' rfl).1
    rw [this, Function.update_eq_self]
  refine ⟨registered, ok.stored.of_store ?_, fun j q hq hs => ?_, ok.phase.keeps ⟨fun j r hr => ?_, fun j r hr hh => ?_,
    fun j hj => dismiss ▸ hj⟩ ok.registered.queues (by rw [trunk]) (by rw [trunk]),
    ok.hunt.congr (by rw [trunk]) (by rw [trunk])⟩
  · rw [State.store, State.store, outqs, trunk, pool]
    simp only [queues]
  · have holds : t.holds = s.holds := State.holds_of_current (by rw [trunk])
    have carried : t.carried = s.carried := State.carried_of_current (by rw [trunk])
    rw [holds, carried]
    rw [record] at hq
    obtain ⟨-, hq⟩ := Function.update_some_of_ne hq fun e => (new q e).2 hs
    exact ok.held j q hq hs
  · by_cases hj : j = i
    · subst hj
      exact here r hr
    · exact handle j hj
  · have hj : j ≠ i := fun e => by
      rw [e, free] at hh
      cases hh
    rw [record, Function.update_of_ne hj]
    exact ⟨r, hr, id, id, fun _ _ => id⟩

/-- An exchange holds a record that is there. -/
theorem State.Sane.not_holds (ok : s.Sane) (h : ∀ r, s.record i = some r → r.state = .retired) : s.holds i = false := by
  by_contra hne
  obtain ⟨x, g, hx, ht, hg⟩ := State.holds_iff.mp (by simpa using hne)
  cases ok.phase with
  | rest _ n => simp [hx] at n
  | guard _ y hy rel =>
    rw [hx] at hy
    cases hy
    rw [Exchange.target_of_released rel] at ht
    cases ht
  | live y _ hy target =>
    rw [hx] at hy
    cases hy
    cases target with
    | invite _ rel =>
      rw [Exchange.target_of_released rel] at ht
      cases ht
    | poll g' r _ htg _ record state =>
      rw [ht] at htg
      cases htg
      have := h r (hg ▸ record)
      simp [this, RecState.isMember] at state
    | data g' r _ _ htg _ record state =>
      rw [ht] at htg
      cases htg
      have := h r (hg ▸ record)
      simp [this, RecState.isMember] at state
    | admits g' r _ htg _ record state =>
      rw [ht] at htg
      cases htg
      have := h r (hg ▸ record)
      simp [this] at state
    | dismiss g' _ htg _ head =>
      rw [ht] at htg
      cases htg
      have marked := (ok.registered.queues.dismiss.2 g.slot).mp (List.mem_of_head? head)
      obtain ⟨r, hr⟩ := ok.registered.queues.dismissing head
      rw [State.standing_some hr, Marked, Option.any_some, Record.standing_eq, h r (hg ▸ hr)] at marked
      cases marked

theorem State.not_holds_free (ok : s.Sane) (hr : s.record i = none) : s.holds i = false :=
  ok.not_holds fun r e => by
    rw [hr] at e
    cases e

/-- Slots other than one keep their handles. -/
theorem State.handle_of_slots {y : Slot} (h : t.registry.slots = s.registry.slots.set i y) (j : SlotNo) (hj : j ≠ i) :
    t.handle j = s.handle j := by
  have e : t.slot j = (s.setSlot i y).slot j := by rw [State.slot, h]; rfl
  rw [State.handle, e, State.slot_setSlot, if_neg (Ne.symm hj)]
  rfl

theorem State.Sane.created {y : Slot} (ok : s.Sane) (registered : t.Registered) (hi : s.record i = none)
    (slots : t.registry.slots = s.registry.slots.set i y)
    (new : ∀ r', y.record = some r' → r'.outq = [] ∧ r'.state ≠ .retiring)
    (dismiss : t.registry.dismissQueue = s.registry.dismissQueue) (trunk : t.trunk = s.trunk) (pool : t.pool = s.pool)
    (queues : ∀ ch, (t.port ch).deliveryQueue = (s.port ch).deliveryQueue) : t.Sane :=
  ok.replace registered (State.record_of_slots slots) (State.handle_of_slots slots)
    (fun r e => by rw [hi] at e; cases e) (by rw [State.outq, hi]; rfl) new (State.not_holds_free ok hi) dismiss trunk pool
    queues

/-- An ADMITTING record for an identity that no record has, at an address of the range that no record has. -/
theorem State.Sane.admitted {rest : List SlotNo} (ok : s.Sane) (hf : s.registry.freeSlots = i :: rest)
    {address : Byte} {identity : List Byte} (ha : within 1 address.toNat 254 = true)
    (hid : within 1 identity.length 16 = true) (cls : Class) (owner : Channel) (free : s.lookup address = none)
    (new : ∀ j b, s.counted j ≠ some (b, identity)) : (s.admitted identity cls owner address i rest).Sane :=
  ok.created (ok.registered.admitted hf ha hid cls owner free new)
    (State.standing_eq_none.mp (ok.registered.queues.free_slot hf))
    (y := { gen := (s.slot i).gen + 1, record := some (Record.fresh .admitting address identity cls owner) }) rfl
    (fun r' e => by cases e; exact ⟨rfl, fun e => nomatch (show RecState.admitting = .retiring from e)⟩) rfl rfl rfl
    fun ch => by cases ch <;> rfl

/-! ### Candidates -/

/-- Candidates change, with their identities among those of before. -/
theorem State.Sane.candidates (ok : s.Sane) {f : Admission → Admission}
    (sublist : ((f s.adm).candidates.map Candidate.identity).Sublist s.identities) : (s.updAdm f).Sane :=
  ⟨⟨ok.registered.records, ok.registered.queues.congr rfl rfl ok.registered.queues.cursor rfl rfl rfl,
      ok.registered.naming.congr rfl rfl sublist,
      ok.registered.posted.congr (fun _ _ => Iff.rfl) fun ch => by simp⟩,
    ok.stored.of_store rfl, ok.held.congr rfl rfl, ok.phase.congr rfl rfl rfl, ok.hunt.congr rfl rfl⟩

/-- A candidate of a new identity joins the list. -/
theorem State.Registered.addCandidate (h : s.Registered) {identity : List Byte} (out : identity ∉ s.identities)
    (new : ∀ j b, s.counted j ≠ some (b, identity)) (d : Disposition) : (s.addCandidate identity d).Registered := by
  unfold State.addCandidate
  split
  · refine ⟨h.records, h.queues.congr rfl rfl h.queues.cursor rfl rfl rfl,
      ⟨h.naming.index, h.naming.identity, ?_, fun id hid j b => ?_⟩,
      h.posted.congr (fun _ _ => Iff.rfl) fun ch => by simp⟩
    · simp only [State.identities, State.adm_updAdm, List.map_append, List.map_cons, List.map_nil]
      exact h.naming.candidates.append (List.nodup_singleton _) (List.disjoint_singleton.mpr out)
    · simp only [State.identities, State.adm_updAdm, List.map_append, List.map_cons, List.map_nil, List.mem_append,
        List.mem_singleton] at hid
      rcases hid with hid | hid
      · exact h.naming.apart id hid j b
      · exact hid ▸ new j b
  · exact h.of_roll (by rw [State.roll, State.roll]; simp [State.identities])

end Sys2Proof.Machine
end

section
/-! Sound states under the choice of the next exchange, and the states in which an exchange has released its target: the
guard, and the line at rest. -/

namespace Sys2Proof.Machine

variable {s t : State} {i : SlotNo} {r : Record} {x : Exchange}

theorem State.SettingsOk.slowDivisor_le (h : s.SettingsOk) : s.poll.slowDivisor ≤ 16 := (within_iff.mp h.1.1).2

theorem State.SettingsOk.retryLimit_le (h : s.SettingsOk) : s.trunk.health.retryLimit ≤ 15 := by
  obtain ⟨⟨-, -, -, limit, -⟩, -⟩ := h
  exact (within_iff.mp limit).2

/-! ### An exchange that has released its target -/

/-- What holds once the exchange has released its target, whatever the line state is. -/
structure State.Loose (s : State) : Prop where
  registered : s.Registered
  stored : s.Stored
  held : s.Held
  released : ∀ x, s.trunk.current = some x → x.released = x

theorem State.Loose.not_holds (h : s.Loose) (i : SlotNo) : s.holds i = false :=
  State.not_holds fun x hx => Exchange.target_of_released (h.released x hx)

theorem State.Loose.carried (h : s.Loose) (i : SlotNo) : s.carried i = none := State.carried_of_not_holds (h.not_holds i)

theorem State.Loose.reservedBuffer (h : s.Loose) : s.reservedBuffer = none := by
  unfold State.reservedBuffer
  cases hx : s.trunk.current with
  | none => rfl
  | some x =>
    rw [Option.bind_some, ← h.released x hx]
    rfl

/-- Between events the exchange has released its target but in SENDING and AWAITING. -/
theorem State.Sane.loose (ok : s.Sane) (h : s.trunk.line ≠ .sending) (h' : s.trunk.line ≠ .awaiting) : s.Loose := by
  refine ⟨ok.registered, ok.stored, ok.held, fun x hx => ?_⟩
  cases ok.phase with
  | rest _ n =>
    rw [hx] at n
    cases n
  | guard _ y hy rel =>
    rw [hx] at hy
    cases hy
    exact rel
  | live y l _ _ =>
    rcases l with l | ⟨l, -⟩
    · exact absurd l h
    · exact absurd l h'

/-- One loose state after another that differs in the exchange and the line at most. -/
theorem State.Loose.of_eq (ok : s.Loose) (roll : t.roll = s.roll) (buffers : t.pool.buffers = s.pool.buffers)
    (free : t.pool.free = s.pool.free) (queues : ∀ ch, (t.port ch).deliveryQueue = (s.port ch).deliveryQueue)
    (released : ∀ x, t.trunk.current = some x → x.released = x) : t.Loose := by
  have registry : t.registry = s.registry := congrArg Prod.fst roll
  have record := State.record_of_registry registry
  have holds : ∀ j, t.holds j = false := fun j =>
    State.not_holds fun x hx => Exchange.target_of_released (released x hx)
  have place : t.placeOf = s.placeOf := funext fun b => by
    rw [State.placeOf, State.buffer, buffers]
    rfl
  have reserved : t.reservedBuffer = none := by
    unfold State.reservedBuffer
    cases hx : t.trunk.current with
    | none => rfl
    | some x =>
      rw [Option.bind_some, ← released x hx]
      rfl
  refine ⟨ok.registered.of_roll roll, ⟨?_, ?_, ?_, ?_, fun b => ?_⟩, fun j r hr hs => ?_, released⟩
  · rw [place, free]
    exact ok.stored.free
  · rw [place, State.outq_of_record record]
    exact ok.stored.queued
  · rw [place, show t.port0.deliveryQueue = _ from queues .ch0, show t.port1.deliveryQueue = _ from queues .ch1]
    exact ok.stored.delivered
  · rw [place, reserved, ← ok.reservedBuffer]
    exact ok.stored.reserved
  · rw [State.buffer, buffers]
    exact ok.stored.length b
  · rw [record] at hr
    have := ok.held j r hr hs
    rw [ok.not_holds, ok.carried] at this
    rw [holds, State.carried_of_not_holds (holds j)]
    exact this

/-- The guard starts (R73, R81). -/
theorem State.Loose.toGuard (ok : s.Loose) (hx : s.trunk.current = some x) : s.toGuard.Sane := by
  have current : s.toGuard.trunk.current = some x.released := by
    rw [State.toGuard_eq, hx]
    rfl
  have released : x.released.released = x.released := rfl
  have loose : s.toGuard.Loose := ok.of_eq rfl rfl rfl (fun ch => by cases ch <;> rfl) fun y hy => by
    rw [current] at hy
    cases hy
    exact released
  exact ⟨loose.registered, loose.stored, loose.held, .guard rfl _ current released, fun h => by simp [State.toGuard_eq] at h⟩

/-- The line comes to rest: OFF, IDLE or FAULT (R79). -/
theorem State.Loose.rests (ok : s.Loose) (roll : t.roll = s.roll) (buffers : t.pool.buffers = s.pool.buffers)
    (free : t.pool.free = s.pool.free) (queues : ∀ ch, (t.port ch).deliveryQueue = (s.port ch).deliveryQueue)
    (current : t.trunk.current = none) (line : t.trunk.line = .off ∨ t.trunk.line = .idle ∨ t.trunk.line = .fault)
    (hunt : t.trunk.line = .off → t.trunk.hunt = Hunt.start) : t.Sane := by
  have loose : t.Loose := ok.of_eq roll buffers free queues fun x hx => by
    rw [current] at hx
    cases hx
  refine ⟨loose.registered, loose.stored, loose.held, .rest line current, fun h => ?_⟩
  rcases line with line | line | line
  · exact hunt line
  · simp [line] at h
  · simp [line] at h

theorem State.Loose.toOff (ok : s.Loose) : s.toOff.Sane :=
  ok.rests rfl rfl rfl (fun ch => by cases ch <;> rfl) rfl (.inl rfl) fun _ => rfl

/-! ### An exchange begins -/

theorem State.Sane.idle_current (ok : s.Sane) (line : s.trunk.line = .idle) : s.trunk.current = none := by
  cases ok.phase with
  | rest _ n => exact n
  | guard l => rw [line] at l; cases l
  | live _ l => simp [line] at l

/-- A frame begins to be sent, with the exchange's target as its kind allows (R80). -/
theorem State.Sane.begin (ok : s.Sane) (line : s.trunk.line = .idle) (roll : t.roll = s.roll) (stored : t.Stored)
    (sending : t.trunk.line = .sending) (current : t.trunk.current = some x) (hunt : t.trunk.hunt = Hunt.start)
    (target : t.Target x) : t.Sane := by
  have none := ok.idle_current line
  have loose := ok.loose (by rw [line]; decide) (by rw [line]; decide)
  have record : t.record = s.record := State.record_of_registry (congrArg Prod.fst roll)
  have phase : t.Phase := .live x (.inl sending) current target
  refine ⟨ok.registered.of_roll roll, stored, fun j r hr hs => ?_, phase, fun _ => hunt⟩
  have hr' := hr
  rw [record] at hr'
  obtain ⟨waits, empty⟩ := ok.held j r hr' hs
  rw [loose.not_holds] at waits
  rw [loose.carried] at empty
  refine ⟨.inl (waits.resolve_right (by decide)), ?_⟩
  cases hc : t.carried j with
  | none => exact empty
  | some b =>
    obtain ⟨q, hq, head⟩ := phase.carried hc
    rw [hr] at hq
    cases hq
    rw [empty] at head
    cases head

theorem State.Sane.idle_reserved (ok : s.Sane) (line : s.trunk.line = .idle) : s.reservedBuffer = none :=
  (ok.loose (by rw [line]; decide) (by rw [line]; decide)).reservedBuffer

/-- A frame that reserves no buffer. -/
theorem State.Sane.beginExchange (ok : s.Sane) (line : s.trunk.line = .idle) (frame : List Byte)
    (reserved : x.reserved = none) (target : s.Target x) : (s.beginExchange x frame).Sane := by
  refine ok.begin line rfl ⟨ok.stored.free, ok.stored.queued, ok.stored.delivered, ?_, ok.stored.length⟩ rfl rfl rfl ?_
  · have : (s.beginExchange x frame).reservedBuffer = s.reservedBuffer := by
      rw [ok.idle_reserved line]
      exact reserved
    rw [this]
    exact ok.stored.reserved
  · have same : (s.beginExchange x frame).targetOk = s.targetOk := State.targetOk_of_registry rfl
    rw [← State.targetOk_iff, same, State.targetOk_iff]
    exact target

theorem State.Target.of_registry (h : s.Target x) (registry : t.registry = s.registry) : t.Target x := by
  rw [← State.targetOk_iff, State.targetOk_of_registry registry, State.targetOk_iff]
  exact h

theorem State.Sane.beginDismiss (ok : s.Sane) (line : s.trunk.line = .idle)
    (hd : s.registry.dismissQueue.head? = some i) (r : Record) : (s.beginDismiss i r).Sane :=
  ok.beginExchange line _ rfl (.dismiss (s.handle i) rfl rfl rfl hd rfl rfl rfl)

theorem State.Sane.beginAdmit (ok : s.Sane) (line : s.trunk.line = .idle) (hr : s.record i = some r)
    (hs : r.state = .admitting) : (s.beginAdmit i r).Sane :=
  ok.beginExchange line _ rfl (.admits (s.handle i) r rfl rfl rfl hr (.inl hs) rfl rfl rfl)

theorem State.Sane.beginInvite (ok : s.Sane) (line : s.trunk.line = .idle) : s.beginInvite.Sane := by
  have sent := ok.beginExchange (x := ⟨.invite, none, none, none, none⟩) line
    (inviteFrame s.adm.width s.adm.nextPartition) rfl (.invite rfl rfl)
  exact sent.of_view rfl

/-- The head of the free buffer list becomes RESERVED, and the exchange has it (R87, R161). -/
theorem State.Stored.reserve (h : s.Stored) (none : s.reservedBuffer = none) (x : Exchange) (frame : List Byte)
    (reserved : x.reserved = s.pool.free.head?) : (s.reserve.1.beginExchange x frame).Stored := by
  have buffer : (s.reserve.1.beginExchange x frame).reservedBuffer = s.pool.free.head? := reserved
  cases hf : s.pool.free with
  | nil =>
    have e : s.reserve.1 = s := by rw [State.reserve_eq, hf]
    rw [e] at buffer ⊢
    refine ⟨h.free, h.queued, h.delivered, ?_, h.length⟩
    rw [buffer, hf, List.head?_nil, ← none]
    exact h.reserved
  | cons b rest =>
    have e : s.reserve.1 = { s with pool := { s.pool with
        free := rest, buffers := s.pool.buffers.set b { s.buffer b with place := .reserved } } } := by
      rw [State.reserve_eq, hf]
    have was : s.placeOf b = .free := (h.free.2 b).mp (by rw [hf]; exact List.mem_cons_self ..)
    have buffers : ∀ c, (s.reserve.1.beginExchange x frame).buffer c =
        (s.setBuffer b { s.buffer b with place := .reserved }).buffer c := fun c => by rw [e]; rfl
    have place : (s.reserve.1.beginExchange x frame).placeOf = Function.update s.placeOf b .reserved := funext fun c => by
      rw [State.placeOf, buffers, State.buffer_setBuffer, Function.update_apply]
      by_cases hc : b = c
      · rw [if_pos hc, if_pos hc.symm]
      · rw [if_neg hc, if_neg (Ne.symm hc)]
        rfl
    refine ⟨?_, fun j => ?_, ?_, ?_, fun c => ?_⟩
    · rw [place, e]
      exact (hf ▸ h.free).dropHead (by simp)
    · rw [place, e]
      exact (h.queued j).keep (iff_of_false (by simp) (by rw [was]; simp))
    · rw [place, e]
      exact h.delivered.keep (iff_of_false (by simp [Place.isDelivered]) (by rw [was]; simp [Place.isDelivered]))
    · rw [place, buffer, hf]
      have := h.reserved
      rw [none] at this
      exact this.join (a := b) (by rw [was]; simp) rfl
    · rw [buffers, State.buffer_setBuffer]
      split
      · exact h.length b
      · exact h.length c

theorem State.Sane.beginPollData (ok : s.Sane) (line : s.trunk.line = .idle) (hr : s.record i = some r)
    (hm : r.state.isMember = true) : (s.beginPollData i r).Sane := by
  have none := ok.idle_reserved line
  have reserve : s.reserve.1.roll = s.roll := by
    rw [State.reserve_eq]
    cases s.pool.free <;> rfl
  have registry : s.reserve.1.registry = s.registry := congrArg Prod.fst reserve
  have began : ∀ x frame, x.reserved = s.pool.free.head? → s.Target x → (s.reserve.1.beginExchange x frame).Sane :=
    fun x frame hres target => ok.begin line reserve (ok.stored.reserve none x frame hres) rfl rfl rfl
      (target.of_registry registry)
  rw [State.beginPollData_eq]
  split
  · next b rest hq _ =>
    exact began _ _ rfl (.data (s.handle i) r b rfl rfl rfl hr (.inl hm) rfl rfl (by rw [hq]; rfl))
  · exact began _ _ rfl (.poll (s.handle i) r rfl rfl rfl hr (.inl hm) rfl rfl)

/-! ### Requests for a member -/

/-- The Ring's cursor moves, and nothing else of the registry's collections. -/
theorem State.Sane.cursor (ok : s.Sane) (registry : t.registry = s.registry) (ring : t.poll.ring = s.poll.ring)
    (cursor : t.poll.cursor ≤ t.poll.ring.length) (adm : t.adm = s.adm) (trunk : t.trunk = s.trunk) (pool : t.pool = s.pool)
    (ports : ∀ ch, t.port ch = s.port ch) : t.Sane := by
  have record := State.record_of_registry registry
  have standing := State.standing_of_record record
  refine ⟨⟨?_, ok.registered.queues.congr standing ring cursor (congrArg Registry.freeSlots registry)
      (congrArg Registry.admitQueue registry) (congrArg Registry.dismissQueue registry),
    ok.registered.naming.congr (State.counted_of_standing standing) (State.lookup_of_registry registry) ?_,
    ok.registered.posted.congr (fun _ _ => by rw [record]) fun ch => by rw [ports]⟩, ok.stored.of_store ?_,
    ok.held.congr record (by rw [trunk]), ok.phase.congr registry (by rw [trunk]) (by rw [trunk]),
    ok.hunt.congr (by rw [trunk]) (by rw [trunk])⟩
  · rw [State.RecordsOk, record]
    exact ok.registered.records
  · rw [State.identities, adm]
    exact List.Sublist.refl _
  · rw [State.store, State.store, State.outq_of_record record, trunk, pool]
    simp only [ports]

theorem PollRing.stepCountdown_ring (p : PollRing) (interval : Nat) :
    (p.stepCountdown interval).ring = p.ring ∧ (p.stepCountdown interval).cursor = p.cursor := by
  unfold PollRing.stepCountdown
  split
  · exact ⟨rfl, rfl⟩
  · split <;> exact ⟨rfl, rfl⟩

theorem PollRing.endPass_ring (p : PollRing) (interval : Nat) :
    (p.endPass interval).ring = p.ring ∧ (p.endPass interval).cursor = 0 :=
  PollRing.stepCountdown_ring _ interval

theorem State.Sane.endPass (ok : s.Sane) : s.endPass.Sane := by
  obtain ⟨ring, cursor⟩ := PollRing.endPass_ring s.poll s.adm.interval
  exact ok.cursor rfl ring (cursor ▸ Nat.zero_le _) rfl rfl rfl fun ch => by cases ch <;> rfl

theorem State.Sane.visit (ok : s.Sane) (settings : s.SettingsOk) (hc : s.poll.cursor < s.poll.ring.length) (i : SlotNo) :
    (s.visit i).1.Sane := by
  cases hr : s.record i with
  | none =>
    rw [State.visit, hr]
    exact ok.cursor rfl rfl hc rfl rfl rfl fun ch => by cases ch <;> rfl
  | some r =>
    rw [State.visit_eq hr]
    have skipped := ok.setRecord (r' := { r with skip := (visitOutcome s.poll.slowDivisor r).2 }) hr ⟨rfl, Iff.rfl, rfl, rfl⟩ ((ok.registered.fits hr).visited settings.slowDivisor_le) rfl rfl
    exact skipped.cursor rfl rfl hc rfl rfl rfl fun ch => by cases ch <;> rfl

/-- A member found due is ACTIVE or SILENT (R44). -/
theorem State.visit_due (h : (s.visit i).2 = true) : ∃ r, (s.visit i).1.record i = some r ∧ r.state.isMember = true := by
  cases hr : s.record i with
  | none =>
    rw [State.visit, hr] at h
    cases h
  | some r =>
    rw [State.visit_eq hr] at h ⊢
    refine ⟨{ r with skip := (visitOutcome s.poll.slowDivisor r).2 }, State.record_setRecord_same s i _, ?_⟩
    dsimp only at h ⊢
    unfold visitOutcome at h
    cases hs : r.state <;> simp [hs, RecState.isMember] at h ⊢

theorem State.visit_ring (s : State) (i : SlotNo) :
    (s.visit i).1.poll.ring = s.poll.ring ∧ (s.visit i).1.poll.cursor = s.poll.cursor + 1 := by
  rw [State.visit_poll]
  exact ⟨rfl, rfl⟩

/-- Visits from the cursor onward keep a sound state, and find a member. -/
theorem State.Sane.visitFrom (l : List SlotNo) : ∀ s : State, s.Sane → s.SettingsOk →
    l = s.poll.ring.drop s.poll.cursor → (s.visitFrom l).1.Sane
      ∧ ∀ i, (s.visitFrom l).2 = .slot i → ∃ r, (s.visitFrom l).1.record i = some r ∧ r.state.isMember = true := by
  induction l with
  | nil =>
    intro s ok _ _
    refine ⟨ok.endPass, fun i e => ?_⟩
    simp only [State.visitFrom, State.endPassAnswer] at e
    split at e <;> cases e
  | cons i rest ih =>
    intro s ok settings hl
    have hc : s.poll.cursor < s.poll.ring.length := by
      by_contra hge
      rw [List.drop_eq_nil_of_le (Nat.le_of_not_lt hge)] at hl
      cases hl
    have visited := ok.visit settings hc i
    unfold State.visitFrom
    dsimp only
    split
    · next due =>
      obtain ⟨r, hr, hm⟩ := State.visit_due due
      refine ⟨?_, fun j e => ?_⟩
      · split
        · exact visited.endPass
        · exact visited
      · cases e
        refine ⟨r, ?_, hm⟩
        split
        · exact hr
        · exact hr
    · refine ih _ visited ((State.Regular.of_essence (State.essence_visit s i)).tame.settings settings) ?_
      obtain ⟨ring, cursor⟩ := s.visit_ring i
      rw [ring, cursor, ← List.drop_drop, ← hl]
      rfl

theorem State.Sane.requestMember (ok : s.Sane) (settings : s.SettingsOk) : s.requestMember.1.Sane
    ∧ ∀ i, s.requestMember.2 = .slot i → ∃ r, s.requestMember.1.record i = some r ∧ r.state.isMember = true := by
  unfold State.requestMember
  split
  · exact ⟨ok, fun i e => by cases e⟩
  · exact State.Sane.visitFrom _ s ok settings rfl

/-! ### The choice -/

theorem State.Queues.admitting (h : s.Queues) {rest : List SlotNo} (ha : s.registry.admitQueue = i :: rest) :
    ∃ r, s.record i = some r ∧ r.state = .admitting := by
  have marked := (h.admits.2 i).mp (by rw [ha]; exact List.mem_cons_self ..)
  cases hr : s.record i with
  | none =>
    rw [State.standing_eq_none.mpr hr] at marked
    cases marked
  | some r =>
    rw [State.standing_some hr, Marked, Option.any_some, Record.standing_eq] at marked
    exact ⟨r, rfl, by simpa using marked⟩

theorem State.Sane.chooseWith {k : State → State}
    (hk : ∀ t : State, t.Sane → t.SettingsOk → t.trunk.line = .idle → (k t).Sane) (ok : s.Sane) (settings : s.SettingsOk)
    (line : s.trunk.line = .idle) : (s.chooseWith k).Sane := by
  unfold State.chooseWith
  split
  · next i rest _ hd =>
    split
    · exact ok.beginDismiss line (by rw [hd]; rfl) _
    · exact ok
  · next i rest hd ha =>
    obtain ⟨r, hr, hs⟩ := ok.registered.queues.admitting ha
    rw [hr]
    exact ok.beginAdmit line hr hs
  · split
    · exact ok.beginInvite line
    · obtain ⟨requested, member⟩ := ok.requestMember settings
      obtain ⟨-, trunk, -⟩ := s.requestMember_frame
      have idle : s.requestMember.1.trunk.line = .idle := by rw [trunk, line]
      dsimp only
      split
      · next i hi =>
        obtain ⟨r, hr, hm⟩ := member i hi
        rw [hr]
        exact requested.beginPollData idle hr hm
      · exact hk _ requested ((State.regular_requestMember s).tame.settings settings) idle
      · exact requested

theorem State.Sane.choose (ok : s.Sane) (settings : s.SettingsOk) (line : s.trunk.line = .idle) : s.choose.Sane :=
  State.Sane.chooseWith (fun _ tok tset tline => State.Sane.chooseWith (fun _ uok _ _ => uok) tok tset tline) ok settings
    line

theorem State.Sane.wake (ok : s.Sane) (settings : s.SettingsOk) : s.wake.Sane := by
  unfold State.wake
  split
  · next line => exact ok.choose settings line
  · exact ok

theorem State.Sane.wakeIfInvitePending (ok : s.Sane) (settings : s.SettingsOk) : s.wakeIfInvitePending.Sane := by
  unfold State.wakeIfInvitePending
  split
  · exact ok.wake settings
  · exact ok

/-- The line enters IDLE with no exchange, and the next one is chosen (R81, R82). -/
theorem State.Loose.enterIdle (ok : s.Loose) (settings : s.SettingsOk) (current : s.trunk.current = none) :
    s.enterIdle.Sane := by
  refine State.Sane.choose ?_ ?_ rfl
  · exact ok.rests rfl rfl rfl (fun ch => by cases ch <;> rfl) current (.inr (.inl rfl)) fun e => nomatch (show LineState.idle = .off from e)
  · exact (State.regular_updTrunk s rfl rfl rfl rfl id).tame.settings settings

end Sys2Proof.Machine
end

section
/-! What the outcome of an exchange leaves of a sound state: the exchange has released its target, and only the target's
record may still have to settle. -/

namespace Sys2Proof.Machine

variable {s t : State} {i : SlotNo} {r r' : Record} {x : Exchange} {h : Handle}

/-! ### While a record settles -/

/-- What holds while one record's outcome is applied: the exchange has released its target, and every other RETIRING
record waits for its dismissal with no buffer. -/
structure State.Settling (s : State) (i : SlotNo) : Prop where
  registered : s.Registered
  stored : s.Stored
  released : ∀ x, s.trunk.current = some x → x.released = x
  waits : ∀ j r, j ≠ i → s.record j = some r → r.state = .retiring → r.dismissPending = some true ∧ r.outq = []

theorem State.Settling.loose (ok : s.Settling i)
    (here : ∀ r, s.record i = some r → r.state = .retiring → r.dismissPending = some true ∧ r.outq = []) : s.Loose := by
  refine ⟨ok.registered, ok.stored, fun j r hr hs => ?_, ok.released⟩
  have free : s.holds j = false := State.not_holds fun x hx => Exchange.target_of_released (ok.released x hx)
  rw [free, State.carried_of_not_holds free]
  obtain ⟨waits, empty⟩ : r.dismissPending = some true ∧ r.outq = [] := by
    by_cases hj : j = i
    · exact here r (hj ▸ hr) hs
    · exact ok.waits j r hj hr hs
  exact ⟨.inl waits, empty⟩

/-- A record that settles in a state other than RETIRING has settled. -/
theorem State.Settling.loose_of_ne (ok : s.Settling i) (hr : s.record i = some r) (hs : r.state ≠ .retiring) : s.Loose :=
  ok.loose fun q hq hqs => by
    rw [hr] at hq
    cases hq
    exact absurd hqs hs

/-- A RETIRING record with no buffer left enters RETIRED unless its dismissal is pending (R22). -/
theorem State.Settling.settle (ok : s.Settling i) (hr : s.record i = some r) (hs : r.state = .retiring)
    (hq : r.outq = []) : (if r.dismissPending = some false then s.enterRetired i else s).Loose := by
  split
  · next hd =>
    have registered := ok.registered.enterRetired hr hs (by rw [hd]; decide) hq
    have hne : r.state ≠ .retired := by rw [hs]; decide
    rw [State.enterRetired_eq hr hne] at registered ⊢
    set t := (s.touch i r r.retiredNow []).setIndex r.address none with ht
    have record : t.record = Function.update s.record i (some r.retiredNow) := s.record_touch_eq i r r.retiredNow []
    have trunk : t.trunk = s.trunk := by rw [ht, State.setIndex_trunk, State.touch_trunk]
    refine State.Settling.loose_of_ne (i := i) (r := r.retiredNow)
      ⟨registered, ok.stored.of_store ?_, fun x hx => ok.released x (trunk ▸ hx), fun j q hj hq' => ?_⟩ ?_
      fun e => nomatch (show RecState.retired = .retiring from e)
    · have outq : t.outq = s.outq := by
        have e : s.outq i = r.outq := State.outq_some hr
        rw [State.outq_update record, show ((some r.retiredNow).map Record.outq).getD [] = s.outq i from e.symm,
          Function.update_eq_self]
      have queues : ∀ ch, (t.port ch).deliveryQueue = (s.port ch).deliveryQueue := s.deliveryQueue_touch i r r.retiredNow []
      have pool : t.pool = s.pool := by rw [ht, State.setIndex_pool, State.touch_pool]; rfl
      rw [State.store, State.store, outq, trunk, pool]
      simp only [queues]
    · rw [record, Function.update_of_ne hj] at hq'
      exact ok.waits j q hj hq'
    · rw [record, Function.update_self]
  · next hd =>
    refine ok.loose fun q hq' _ => ?_
    rw [hr] at hq'
    cases hq'
    obtain ⟨-, -, -, -, -, -, some⟩ := Record.fieldsOk_retiring hs (ok.registered.fits hr).fields
    refine ⟨?_, hq⟩
    obtain ⟨b, hb⟩ := Option.isSome_iff_exists.mp some
    cases b
    · exact absurd hb hd
    · exact hb

/-- Every RETIRING record but the exchange's target waits for its dismissal with no buffer. -/
theorem State.Sane.waits (ok : s.Sane) (hx : s.trunk.current = some x) (ht : x.target = some h) (j : SlotNo) (r : Record)
    (hj : j ≠ h.slot) (hr : s.record j = some r) (hs : r.state = .retiring) :
    r.dismissPending = some true ∧ r.outq = [] := by
  have free : s.holds j = false := by
    by_contra hne
    obtain ⟨y, g, hy, hg, hgj⟩ := State.holds_iff.mp (by simpa using hne)
    rw [hx] at hy
    cases hy
    rw [ht] at hg
    cases hg
    exact hj hgj.symm
  obtain ⟨waits, empty⟩ := ok.held j r hr hs
  rw [free] at waits
  rw [State.carried_of_not_holds free] at empty
  exact ⟨waits.resolve_right (by decide), empty⟩

theorem State.Sane.settling (ok : s.Sane) (hx : s.trunk.current = some x) (ht : x.target = some h)
    (registered : t.Registered) (stored : t.Stored) (record : ∀ j, j ≠ h.slot → t.record j = s.record j)
    (current : t.trunk.current = some x.released) : t.Settling h.slot := by
  refine ⟨registered, stored, fun y hy => ?_, fun j q hj hq => ok.waits hx ht j q hj ?_⟩
  · rw [current] at hy
    cases hy
    rfl
  · rwa [← record j hj]

/-! ### The exchange's target and buffers -/

/-- The buffers that the exchange of a member has: its message's in the outbound queue, and a reserved one elsewhere. -/
theorem State.Stored.reserved_apart (ok : s.Stored) (hr : s.record i = some r) (hx : s.trunk.current = some x)
    {b : BufNo} (hb : x.reserved = some b) : b ∉ r.outq := fun hm =>
  ok.not_reserved (i := i) (b := b) (by rwa [State.outq_some hr]) (by rw [State.reservedBuffer, hx]; exact hb)

theorem State.Stored.outq_nodup (ok : s.Stored) (hr : s.record i = some r) : r.outq.Nodup :=
  State.outq_some hr ▸ (ok.queued i).1

theorem State.reservedBuffer_some (hx : s.trunk.current = some x) : s.reservedBuffer = x.reserved := by
  rw [State.reservedBuffer, hx]
  rfl

theorem State.releaseTarget_current (hx : s.trunk.current = some x) :
    s.releaseTarget.trunk.current = some x.released := by
  rw [State.releaseTarget_trunk hx]

theorem State.record_released_touch (s : State) (i : SlotNo) (r r' : Record) (fs : List BufNo) :
    (s.touch i r r' fs).releaseTarget.record i = some r' := State.record_touch_same i r r' fs

/-- The target's record changed where it stands, buffers given back with the reserved one, and the target released. -/
theorem State.Sane.released_touch {fs : List BufNo} (ok : s.Sane) (hx : s.trunk.current = some x)
    (ht : x.target = some h) (hr : s.record h.slot = some r) (k : r.Follows r') (fits : r'.Fits)
    (standing : r'.standing = r.standing) (nodup : fs.Nodup) (taken : ∀ b ∈ fs, b ∈ r.outq ∨ x.reserved = some b)
    (queueNodup : r'.outq.Nodup) (queue : ∀ b, b ∈ r'.outq ↔ b ∈ r.outq ∧ b ∉ fs)
    (reserved : ∀ b, x.reserved = some b → b ∈ fs) : (s.touch h.slot r r' fs).releaseTarget.Settling h.slot := by
  have record := s.record_touch_eq h.slot r r' fs
  have hx' : (s.touch h.slot r r' fs).trunk.current = some x := by rw [State.touch_trunk]; exact hx
  refine ok.settling hx ht ?_ ?_ (fun j hj => ?_) (State.releaseTarget_current hx')
  · exact (ok.registered.touch hr k ((Record.ok_iff r').mpr fits) standing fs).of_roll rfl
  · refine ok.stored.release_touched hr (t := (s.touch h.slot r r' fs).releaseTarget) record rfl
      (s.deliveryQueue_touch h.slot r r' fs) nodup ?_ queueNodup queue fun b => ?_
    · rw [State.reservedBuffer_some hx]
      exact taken
    · rw [State.reservedBuffer_some hx, State.reservedBuffer_some (State.releaseTarget_current hx')]
      exact iff_of_false (fun e => nomatch (show (none : Option BufNo) = some b from e)) fun ⟨hb, out⟩ => out (reserved b hb)
  · show (s.touch h.slot r r' fs).record j = s.record j
    rw [record, Function.update_of_ne hj]

/-! ### Members -/

/-- A change of a member's record that leaves it a member with its address and identity. -/
structure Record.SameMember (r r' : Record) : Prop where
  member : r.state.isMember = true → r'.state.isMember = true
  address : r'.address = r.address
  identity : r'.identity = r.identity

theorem Record.SameMember.trans {q : Record} (e : r.SameMember r') (f : r'.SameMember q) : r.SameMember q :=
  ⟨fun h => f.member (e.member h), f.address.trans e.address, f.identity.trans e.identity⟩

theorem Record.SameMember.standing (e : r.SameMember r') (hm : r.state.isMember = true) : r'.standing = r.standing := by
  have off : ∀ q : Record, q.state.isMember = true → q.standing = ⟨true, false, false, some (q.address, q.identity)⟩ := by
    intro q hq
    rw [Record.standing_eq]
    cases hs : q.state <;> simp [hs, RecState.isMember, RecState.counts] at hq ⊢
  rw [off r hm, off r' (e.member hm), e.address, e.identity]

theorem Record.sameMember_recovers (r : Record) (d : Nat) : r.SameMember (r.recovers d) := by
  refine ⟨Record.recovers_isMember d, r.recovers_address d, ?_⟩
  unfold Record.recovers
  split <;> rfl

theorem Record.sameMember_unacknowledged (r : Record) (limit : Nat) (b : BufNo) :
    r.SameMember (r.unacknowledged limit b) := by
  refine ⟨fun h => by rwa [Record.unacknowledged_state], r.unacknowledged_address limit b, ?_⟩
  unfold Record.unacknowledged
  dsimp only
  split <;> rfl

theorem Record.sameMember_judged (r : Record) (limit : Nat) (x : Exchange) (v : Reply) :
    r.SameMember (r.judged limit x v) := by
  rcases r.judged_cases limit x v with e | ⟨b, -, e⟩ | ⟨b, -, e⟩ <;> rw [e]
  · exact ⟨id, rfl, rfl⟩
  · exact ⟨id, rfl, rfl⟩
  · exact r.sameMember_unacknowledged limit b

theorem Record.sameMember_applied (r : Record) (x : Exchange) (v : Reply) : r.SameMember (r.applied x v) := by
  refine ⟨fun h => by rwa [Record.applied_state], ?_, ?_⟩
  all_goals
    unfold Record.applied
    split
    · split <;> rfl
    · split
      · split <;> rfl
      · split <;> rfl
    all_goals rfl

theorem Record.sameMember_replied (r : Record) (d limit : Nat) (x : Exchange) (v : Reply) :
    r.SameMember (r.replied d limit x v) := by
  have counts : (r.recovers d).SameMember { r.recovers d with
    missCount := some 0, replies := min 65535 ((r.recovers d).replies + 1) } := ⟨id, rfl, rfl⟩
  exact ((r.sameMember_recovers d).trans counts).trans
    ((Record.sameMember_judged _ limit x v).trans (Record.sameMember_applied _ x v))

theorem Record.sameMember_counted (r : Record) (threshold : Nat) : r.SameMember (r.counted threshold) := by
  unfold Record.counted
  dsimp only
  split
  · split
    · exact ⟨fun _ => rfl, rfl, rfl⟩
    · exact ⟨id, rfl, rfl⟩
  all_goals exact ⟨id, rfl, rfl⟩

theorem Record.sameMember_missed (r : Record) (health : Health) (x : Exchange) : r.SameMember (r.missed health x) := by
  rw [Record.missed_eq]
  refine Record.SameMember.trans ?_ (Record.sameMember_counted _ _)
  unfold Record.unanswered
  split
  · exact r.sameMember_unacknowledged ..
  · exact ⟨id, rfl, rfl⟩

/-- What an outcome may do to the outbound queue: nothing, or it takes the carried message off. -/
def Exchange.Finishes (x : Exchange) (before after : List BufNo) : Prop :=
  after = before ∨ ∃ b, x.outbound = some b ∧ after = before.erase b

theorem Record.finishes_unacknowledged (r : Record) (limit : Nat) {b : BufNo} (hb : x.outbound = some b) :
    x.Finishes r.outq (r.unacknowledged limit b).outq := by
  rw [Record.unacknowledged_outq]
  split
  · exact .inr ⟨b, hb, rfl⟩
  · exact .inl rfl

theorem Record.finishes_replied (r : Record) (d limit : Nat) (x : Exchange) (v : Reply) :
    x.Finishes r.outq (r.replied d limit x v).outq := by
  rw [Record.replied_eq, Record.applied_outq, Record.answered]
  have same : r.outq = Record.outq { r.recovers d with
      missCount := some 0, replies := min 65535 ((r.recovers d).replies + 1) } := (r.recovers_outq d).symm
  rw [same]
  rcases Record.judged_cases _ limit x v with e | ⟨b, hb, e⟩ | ⟨b, hb, e⟩ <;> rw [e]
  · exact .inl rfl
  · exact .inr ⟨b, hb, rfl⟩
  · exact Record.finishes_unacknowledged _ limit hb

theorem Record.finishes_missed (r : Record) (health : Health) (x : Exchange) :
    x.Finishes r.outq (r.missed health x).outq := by
  rw [Record.missed_eq, Record.counted_outq]
  unfold Record.unanswered
  split
  · next b hb => exact r.finishes_unacknowledged _ hb
  · exact .inl rfl

/-- The outbound queue after an outcome, and the buffer that it gives back. -/
theorem Exchange.Finishes.buffers {x : Exchange} (e : x.Finishes r.outq r'.outq) (nodup : r.outq.Nodup)
    (hb : ∀ b, x.outbound = some b → b ∈ r.outq) : (finishedBuffer x r').Nodup ∧ (∀ b ∈ finishedBuffer x r', b ∈ r.outq)
      ∧ r'.outq.Nodup ∧ ∀ b, b ∈ r'.outq ↔ b ∈ r.outq ∧ b ∉ finishedBuffer x r' := by
  rcases e with e | ⟨b, ho, e⟩
  · rw [finishedBuffer_of_mem fun b ho => e ▸ hb b ho, e]
    simpa using nodup
  · rw [finishedBuffer_of_erase ho nodup e, e]
    refine ⟨List.nodup_singleton b, fun c hc => ?_, nodup.erase b, fun c => ?_⟩
    · rw [List.mem_singleton] at hc
      exact hc ▸ hb b ho
    · rw [nodup.mem_erase_iff, List.mem_singleton, and_comm]

/-- A member's outcome that delivers nothing. -/
theorem State.Sane.finished (ok : s.Sane) (hx : s.trunk.current = some x) (ht : x.target = some h)
    (hr : s.record h.slot = some r) (hm : r.state.isMember = true) (k : r.Follows r') (fits : r'.Fits)
    (same : r.SameMember r') (queue : x.Finishes r.outq r'.outq) (hb : ∀ b, x.outbound = some b → b ∈ r.outq) :
    (s.touch h.slot r r' (finishedBuffer x r' ++ x.reserved.toList)).releaseTarget.Loose := by
  obtain ⟨nodup, taken, queueNodup, mem⟩ := queue.buffers (ok.stored.outq_nodup hr) hb
  have apart : ∀ b, x.reserved = some b → b ∉ r.outq := fun b => ok.stored.reserved_apart hr hx
  refine State.Settling.loose_of_ne (i := h.slot) (r := r') (ok.released_touch hx ht hr k fits (same.standing hm) ?_ ?_
    queueNodup (fun b => ?_) fun b hres => ?_) ?_ ?_
  · refine nodup.append ?_ fun b hbf hres => apart b (by simpa using hres) (taken b hbf)
    cases x.reserved <;> simp
  · intro b hbf
    rcases List.mem_append.mp hbf with hbf | hbf
    · exact .inl (taken b hbf)
    · exact .inr (by simpa using hbf)
  · rw [mem, List.mem_append, not_or, ← and_assoc]
    refine ⟨fun hmem => ⟨hmem, fun hres => apart b (by simpa using hres) hmem.1⟩, fun hmem => hmem.1⟩
  · simp [hres]
  · exact State.record_released_touch ..
  · have := same.member hm
    intro e
    rw [e] at this
    cases this

/-! ### A delivery -/

theorem Tracks.perm {α β : Type} {f : α → β} {p : β → Prop} {l l' : List α} (h : Tracks f p l) (e : l.Perm l') :
    Tracks f p l' :=
  ⟨e.nodup_iff.mp h.1, fun a => (e.mem_iff (a := a)).symm.trans (h.2 a)⟩

/-- The state with a delivery in it: the buffer at the tail of a delivery queue. -/
def State.delivered (s : State) (ch : Channel) (b : BufNo) (n : Nat) (source : Handle) (address : Byte) : State :=
  let t := s.setBuffer b { length := n, place := .delivered source address }
  t.setPort ch { t.port ch with deliveryQueue := (t.port ch).deliveryQueue ++ [b] }

theorem State.delivered_roll (s : State) (ch : Channel) (b : BufNo) (n : Nat) (source : Handle) (address : Byte) :
    (s.delivered ch b n source address).roll = s.roll := by
  unfold State.delivered State.roll
  cases ch <;> exact congrArg (Prod.mk _) (congrArg (Prod.mk _) (congrArg (Prod.mk _) (congrArg (Prod.mk _)
    (funext fun ch => by cases ch <;> rfl))))

theorem State.delivered_frame (s : State) (ch : Channel) (b : BufNo) (n : Nat) (source : Handle) (address : Byte) :
    (s.delivered ch b n source address).registry = s.registry ∧ (s.delivered ch b n source address).trunk = s.trunk := by
  cases ch <;> exact ⟨rfl, rfl⟩

/-- The reserved buffer goes to a delivery queue, and the exchange releases its target (R94, R159). -/
theorem State.Stored.deliver {b : BufNo} {n : Nat} (ok : s.Stored) (hx : s.trunk.current = some x)
    (hb : x.reserved = some b) (hn : n ≤ 120) (ch : Channel) (source : Handle) (address : Byte) :
    (s.delivered ch b n source address).releaseTarget.Stored := by
  set t := (s.delivered ch b n source address).releaseTarget with ht
  obtain ⟨registry, trunk⟩ := s.delivered_frame ch b n source address
  have was : s.placeOf b = .reserved := (ok.reserved.2 b).mp (by rw [State.reservedBuffer_some hx, hb]; simp)
  have buffer : ∀ c, t.buffer c = if b = c then { length := n, place := .delivered source address } else s.buffer c :=
    fun c => (show t.buffer c = (s.setBuffer b _).buffer c by cases ch <;> rfl).trans (State.buffer_setBuffer ..)
  have place : t.placeOf = Function.update s.placeOf b (.delivered source address) := funext fun c => by
    rw [State.placeOf, buffer, Function.update_apply]
    by_cases hc : b = c
    · rw [if_pos hc, if_pos hc.symm]
    · rw [if_neg hc, if_neg (Ne.symm hc)]
      rfl
  have outq : t.outq = s.outq := State.outq_of_record (State.record_of_registry registry)
  have current : t.trunk.current = some x.released := State.releaseTarget_current (trunk.symm ▸ hx)
  have queues : (t.port0.deliveryQueue ++ t.port1.deliveryQueue).Perm
      (s.port0.deliveryQueue ++ s.port1.deliveryQueue ++ [b]) := by
    cases ch
    · show (s.port0.deliveryQueue ++ [b] ++ s.port1.deliveryQueue).Perm _
      rw [List.append_assoc, List.append_assoc]
      exact List.perm_append_comm.append_left _
    · show (s.port0.deliveryQueue ++ (s.port1.deliveryQueue ++ [b])).Perm _
      rw [List.append_assoc]
  refine ⟨?_, fun i => ?_, ?_, ?_, fun c => ?_⟩
  · rw [place, show t.pool.free = s.pool.free by cases ch <;> rfl]
    exact ok.free.keep (iff_of_false (by simp) (by rw [was]; simp))
  · rw [place, outq]
    exact (ok.queued i).keep (iff_of_false (by simp) (by rw [was]; simp))
  · rw [place]
    exact (ok.delivered.join (by rw [was]; simp [Place.isDelivered]) rfl).perm queues.symm
  · rw [place, State.reservedBuffer_some current]
    have := ok.reserved
    rw [State.reservedBuffer_some hx, hb] at this
    exact this.dropHead (l := []) (by simp)
  · rw [buffer]
    split
    · exact hn
    · exact ok.length c

/-- A member's outcome that delivers the reply's message. -/
theorem State.Sane.finished_delivered {b : BufNo} {n : Nat} (ok : s.Sane) (hx : s.trunk.current = some x)
    (ht : x.target = some h) (hr : s.record h.slot = some r) (hm : r.state.isMember = true) (k : r.Follows r')
    (fits : r'.Fits) (same : r.SameMember r') (queue : x.Finishes r.outq r'.outq)
    (hb : ∀ b, x.outbound = some b → b ∈ r.outq) (hres : x.reserved = some b) (hn : n ≤ 120) (ch : Channel)
    (source : Handle) (address : Byte) :
    ((s.touch h.slot r r' (finishedBuffer x r')).delivered ch b n source address).releaseTarget.Loose := by
  obtain ⟨nodup, taken, queueNodup, mem⟩ := queue.buffers (ok.stored.outq_nodup hr) hb
  set w := s.touch h.slot r r' (finishedBuffer x r') with hw
  have record : w.record = Function.update s.record h.slot (some r') := s.record_touch_eq h.slot r r' _
  have hx' : w.trunk.current = some x := by rw [hw, State.touch_trunk]; exact hx
  have stored : w.Stored := by
    refine ok.stored.release_touched hr record rfl (s.deliveryQueue_touch h.slot r r' _) nodup
      (fun c hc => .inl (taken c hc)) queueNodup mem fun c => ?_
    rw [State.reservedBuffer_some hx, State.reservedBuffer_some hx']
    exact ⟨fun hc => ⟨hc, fun hf => ok.stored.reserved_apart hr hx hc (taken c hf)⟩, fun hc => hc.1⟩
  have registered : w.Registered := ok.registered.touch hr k ((Record.ok_iff r').mpr fits) (same.standing hm) _
  obtain ⟨registry, trunk⟩ := w.delivered_frame ch b n source address
  have record' := State.record_of_registry registry
  refine State.Settling.loose_of_ne (i := h.slot) (r := r') (ok.settling hx ht ?_ (stored.deliver hx' hres hn ch source
    address) (fun j hj => ?_) (State.releaseTarget_current (trunk.symm ▸ hx'))) ?_ fun e => ?_
  · exact (registered.of_roll (w.delivered_roll ch b n source address)).of_roll rfl
  · rw [State.releaseTarget_record, record', record, Function.update_of_ne hj]
  · rw [State.releaseTarget_record, record', record, Function.update_self]
  · have := same.member hm
    rw [e] at this
    cases this

end Sys2Proof.Machine
end

section
/-! Every outcome of a POLL, DATA or ADMIT leads from a sound state to the guard with a sound state. -/

namespace Sys2Proof.Machine

variable {s t : State} {i : SlotNo} {r r' : Record} {x : Exchange} {h : Handle}

/-! ### What the line's bookkeeping leaves -/

/-- Buffers that stay in their places, whatever their lengths become. -/
theorem State.Stored.of_places (ok : s.Stored) (outq : t.outq = s.outq) (reserved : t.reservedBuffer = s.reservedBuffer)
    (place : t.placeOf = s.placeOf) (length : ∀ b, (t.buffer b).length ≤ 120) (free : t.pool.free = s.pool.free)
    (queues : ∀ ch, (t.port ch).deliveryQueue = (s.port ch).deliveryQueue) : t.Stored := by
  refine ⟨?_, ?_, ?_, ?_, length⟩
  · rw [place, free]
    exact ok.free
  · rw [place, outq]
    exact ok.queued
  · rw [place, show t.port0.deliveryQueue = _ from queues .ch0, show t.port1.deliveryQueue = _ from queues .ch1]
    exact ok.delivered
  · rw [place, reserved]
    exact ok.reserved

theorem State.Stored.setLength (ok : s.Stored) {n : Nat} (hn : n ≤ 120) (b : BufNo) :
    (s.setBuffer b { s.buffer b with length := n }).Stored := by
  refine ok.of_places rfl rfl (funext fun c => ?_) (fun c => ?_) rfl fun ch => by cases ch <;> rfl
  · rw [State.placeOf, State.buffer_setBuffer]
    split
    · next hc => exact congrArg s.placeOf hc
    · rfl
  · rw [State.buffer_setBuffer]
    split
    · exact hn
    · exact ok.length c

theorem State.Sane.setLength (ok : s.Sane) {n : Nat} (hn : n ≤ 120) (b : BufNo) :
    (s.setBuffer b { s.buffer b with length := n }).Sane :=
  ⟨ok.registered.of_roll rfl, ok.stored.setLength hn b, ok.held.congr rfl rfl, ok.phase.congr rfl rfl rfl,
    ok.hunt.congr rfl rfl⟩

theorem State.Loose.setLength (ok : s.Loose) {n : Nat} (hn : n ≤ 120) (b : BufNo) :
    (s.setBuffer b { s.buffer b with length := n }).Loose :=
  ⟨ok.registered.of_roll rfl, ok.stored.setLength hn b, ok.held.congr rfl rfl, ok.released⟩

theorem State.Loose.returnLength (ok : s.Loose) {before : State} (lengths : ∀ b, (before.buffer b).length ≤ 120)
    (v : Reply) : (s.returnLength before v).Loose := by
  rcases s.returnLength_eq before v with e | ⟨x, b, -, -, -, e⟩ <;> rw [e]
  · exact ok
  · exact ok.setLength (lengths b) b

theorem State.Sane.takePayload (ok : s.Sane) (payload : List Byte) : (s.takePayload payload).Sane :=
  ok.of_view (by rw [State.takePayload_frame]; rfl)

theorem State.Sane.heardReply (ok : s.Sane) {v : Reply} (hv : ∀ n, v.kind = .data n → n ≤ 120) (payload : List Byte) :
    (s.heardReply payload v).Sane := by
  have taken := ok.takePayload payload
  refine State.Sane.of_view (s := (s.takePayload payload).takeLength v) ?_ rfl
  rcases (s.takePayload payload).takeLength_eq v with e | ⟨x, b, n, -, -, hn, e⟩ <;> rw [e]
  · exact taken
  · exact taken.setLength (hv n hn) b

theorem State.Sane.countSequence (ok : s.Sane) (r : Record) (v : Reply) : (s.countSequence r v).Sane := by
  unfold State.countSequence
  split
  · exact ok.of_view rfl
  · exact ok

/-! ### What the exchange holds -/

/-- An exchange with a target is one in progress. -/
theorem State.Sane.target (ok : s.Sane) (hx : s.trunk.current = some x) (ht : x.target = some h) : s.Target x := by
  cases ok.phase with
  | rest _ n => simp [hx] at n
  | guard _ y hy rel =>
    rw [hx] at hy
    cases hy
    rw [Exchange.target_of_released rel] at ht
    cases ht
  | live y _ hy target =>
    rw [hx] at hy
    cases hy
    exact target

theorem State.Sane.carries (ok : s.Sane) (hx : s.trunk.current = some x) (ht : x.target = some h)
    (hr : s.record h.slot = some r) (b : BufNo) (hb : x.outbound = some b) : b ∈ r.outq := by
  have holds : s.holds h.slot = true := State.holds_iff.mpr ⟨x, h, hx, ht, rfl⟩
  obtain ⟨q, hq, head⟩ := ok.phase.carried (State.carried_iff.mpr ⟨holds, x, hx, hb⟩)
  rw [hr] at hq
  cases hq
  exact List.mem_of_head? head

/-! ### Retirement of a released record -/

theorem State.Loose.enterRetirement (ok : s.Loose) (hr : s.record i = some r) (hs : r.state ≠ .retiring)
    (hs' : r.state ≠ .retired) (cause : RetireCause) (dismiss : Bool) : (s.enterRetirement i cause dismiss).Loose := by
  obtain ⟨-, -, -, trunk, -⟩ := State.enterRetirement_changes hr hs' cause dismiss
  refine ⟨ok.registered.enterRetirement hr hs hs' cause dismiss, ok.stored.enterRetirement hr hs' cause dismiss,
    ok.held.enterRetirement hr hs' (ok.stored.outq_nodup hr) (fun b hb => ?_) cause dismiss, fun x hx => ?_⟩
  · rw [ok.carried] at hb
    cases hb
  · exact ok.released x (trunk ▸ hx)

theorem RecState.isMember_ne_retiring {x : RecState} (h : x.isMember = true) : x ≠ .retiring := by
  rintro rfl
  cases h

/-! ### POLL and DATA of a member -/

/-- The steps of R89 for a valid reply. -/
theorem State.Sane.repliedState (ok : s.Sane) (settings : s.SettingsOk) (hx : s.trunk.current = some x)
    (ht : x.target = some h) (hr : s.record h.slot = some r) (hm : r.state.isMember = true) {v : Reply}
    (hd : ∀ n, v.kind = .data n → n ≤ 120) (hh : ∀ n, v.kind = .hold n → n ≤ 4095) (payload : List Byte) :
    (s.repliedState h.slot r x v payload).Loose
      ∧ (s.repliedState h.slot r x v payload).record h.slot =
        some (r.replied s.poll.slowDivisor s.trunk.health.retryLimit x v)
      ∧ (s.repliedState h.slot r x v payload).trunk.current = some x.released := by
  have hb := ok.carries hx ht hr
  have hq := ok.stored.outq_nodup hr
  have same := s.sameRecords_heardReply payload v
  have heard := ok.heardReply hd payload
  have fits : (r.replied s.poll.slowDivisor s.trunk.health.retryLimit x v).Fits :=
    (ok.registered.fits hr).replied hm settings.slowDivisor_le settings.retryLimit_le hb hh
  have follows : r.Follows (r.replied s.poll.slowDivisor s.trunk.health.retryLimit x v) :=
    (r.follows_answered ..).trans (Record.follows_applied _ x v)
  have member := r.sameMember_replied s.poll.slowDivisor s.trunk.health.retryLimit x v
  have finishes := r.finishes_replied s.poll.slowDivisor s.trunk.health.retryLimit x v
  have lengths : ∀ b, ((s.takePayload payload).buffer b).length ≤ 120 := (ok.takePayload payload).stored.length
  have hxw : (s.heardReply payload v).trunk.current = some x := by rw [State.heardReply_trunk]; exact hx
  have hrw := (same.record h.slot).trans hr
  have returned : ∀ u : State, (u.returnLength (s.takePayload payload) v).record = u.record := fun u =>
    State.record_of_registry (State.sameRecords_returnLength u (s.takePayload payload) v).registry
  cases hk : r.takes x v with
  | false =>
    rw [State.repliedState_of_not_takes hr hm hb hq hk payload]
    have counted := heard.countSequence r v
    have hxc : ((s.heardReply payload v).countSequence r v).trunk.current = some x := by
      rw [State.countSequence_trunk]
      exact hxw
    have hrc := ((State.sameRecords_countSequence (s.heardReply payload v) r v).record h.slot).trans hrw
    refine ⟨(counted.finished hxc ht hrc hm follows fits member finishes hb).returnLength lengths v, ?_, ?_⟩
    · rw [returned]
      exact State.record_released_touch ..
    · rw [(State.returnLength_frame _ _ v).1]
      exact State.releaseTarget_current (by rw [State.touch_trunk]; exact hxc)
  | true =>
    obtain ⟨b, n, hres, hn, -, e⟩ := State.repliedState_of_takes hr hm hb hq hk payload
    dsimp only at e
    rw [e]
    refine ⟨(heard.finished_delivered hxw ht hrw hm follows fits member finishes hb hres (hd n hn) r.owner
      (s.handle h.slot) r.address).returnLength lengths v, ?_, ?_⟩
    · rw [returned]
      exact (congrFun (State.record_of_registry (State.delivered_frame _ r.owner b n (s.handle h.slot) r.address).1)
        h.slot).trans (State.record_touch_same ..)
    · rw [(State.returnLength_frame _ _ v).1]
      refine State.releaseTarget_current ((congrArg Trunk.current (State.delivered_frame _ r.owner b n (s.handle h.slot)
        r.address).2).trans ?_)
      rw [State.touch_trunk]
      exact hxw

theorem State.Sane.missedState (ok : s.Sane) (settings : s.SettingsOk) (hx : s.trunk.current = some x)
    (ht : x.target = some h) (hr : s.record h.slot = some r) (hm : r.state.isMember = true) :
    (s.missedState h.slot r x).Loose
      ∧ (s.missedState h.slot r x).record h.slot = some (r.missed s.trunk.health x) := by
  have hb := ok.carries hx ht hr
  refine ⟨ok.finished hx ht hr hm ?_ ((ok.registered.fits hr).missed hm settings.retryLimit_le hb)
    (r.sameMember_missed s.trunk.health x) (r.finishes_missed s.trunk.health x) hb, State.record_released_touch ..⟩
  rw [Record.missed_eq]
  exact (r.follows_unanswered ..).trans (Record.follows_counted _ _)

/-- A member that is released, and then retired or not, and the guard. -/
theorem State.Loose.retired_toGuard (ok : s.Loose) (hr : s.record i = some r) (hm : r.state.isMember = true)
    (hx : s.trunk.current = some x) (p : Prop) [Decidable p] (cause : RetireCause) :
    (if p then (s.enterRetirement i cause false).toGuard else s.toGuard).Sane := by
  have ne := RecState.isMember_ne_retiring hm
  have ne' := RecState.isMember_ne_retired hm
  split
  · refine (ok.enterRetirement hr ne ne' cause false).toGuard (x := x) ?_
    obtain ⟨-, -, -, trunk, -⟩ := State.enterRetirement_changes hr ne' cause false
    rw [trunk, hx]
  · exact ok.toGuard hx

/-- A miss of a member (R90, R97). -/
theorem State.Sane.outcome_none_member (ok : s.Sane) (settings : s.SettingsOk) (hx : s.trunk.current = some x)
    (hk : x.kind = .poll ∨ x.kind = .data) (ht : x.target = some h) (hr : s.record h.slot = some r)
    (hm : r.state.isMember = true) : (s.outcome none).Sane := by
  have missing : s.faultMiss.Sane := ok.of_view rfl
  obtain ⟨loose, record⟩ := missing.missedState ((State.regular_faultMiss s).tame.settings settings) hx ht hr hm
  rw [State.outcome_none_member hx hk ht hr hm (ok.carries hx ht hr) (ok.stored.outq_nodup hr)]
  refine loose.retired_toGuard (x := x.released) record ((r.sameMember_missed _ x).member hm) ?_ _ _
  exact State.releaseTarget_current (by rw [State.touch_trunk]; exact hx)

/-- A valid reply of a member (R89). -/
theorem State.Sane.replyEnds_member (ok : s.Sane) (settings : s.SettingsOk) (hx : s.trunk.current = some x)
    (hk : x.kind = .poll ∨ x.kind = .data) (ht : x.target = some h) (hr : s.record h.slot = some r)
    (hm : r.state.isMember = true) {bytes : List Byte} {lost : Bool} {v : Reply}
    (hv : judge x.kind s.expectedAddress (receive bytes lost) = .valid v) : (s.replyEnds bytes lost).Sane := by
  obtain ⟨-, hd, hh⟩ := judge_valid_ranges hv
  obtain ⟨loose, record, current⟩ := ok.repliedState settings hx ht hr hm hd hh (dataPayloadTaken bytes lost)
  rw [State.replyEnds_valid hx hk ht hr hm hv]
  exact loose.retired_toGuard record ((r.sameMember_replied _ _ x v).member hm) current _ _

/-! ### A target that is RETIRING -/

/-- The record of a RETIRING target with its carried buffer given back. -/
def Record.wound (r : Record) (x : Exchange) : Record :=
  match x.outbound with
  | some b => (r.uncarried b).addReason .undelivered
  | none => r

/-- An exchange wound up is one touch of its target, which then settles (R21). -/
theorem State.wound_eq_touch (hr : s.record i = some r) (hs : r.state = .retiring)
    (hb : ∀ b, x.outbound = some b → b ∈ r.outq) : s.wound i x =
      (s.touch i r (r.wound x) (x.reserved.toList ++ x.outbound.toList)).releaseTarget.settleRetiring i := by
  have first : s.freeReserved x = s.touch i r r x.reserved.toList := by
    rw [State.touch_self hr]
    unfold State.freeReserved
    cases x.reserved <;> rfl
  have second : (s.touch i r r x.reserved.toList).freeCarried i x =
      s.touch i r (r.wound x) (x.reserved.toList ++ x.outbound.toList) := by
    unfold State.freeCarried Record.wound
    cases ho : x.outbound with
    | none =>
      rw [Option.toList_none, List.append_nil]
    | some b =>
      rw [State.record_touch_same]
      dsimp only
      have off : (s.touch i r r x.reserved.toList).setRecord i (some (r.uncarried b)) =
          s.touch i r (r.uncarried b) x.reserved.toList := State.touch_setRecord i _ (.refl r) rfl rfl
      rw [if_pos (hb b ho)]
      refine (congrArg (fun t => (t.freeBuffer b).post i .undelivered) off).trans ?_
      have follows : r.Follows (r.uncarried b) := ⟨rfl, id⟩
      rw [State.touch_freeBuffer, State.touch_post i _ _ follows (fun e => nomatch hs.symm.trans e)]
      rfl
  rw [State.wound, first, second]

theorem Record.wound_fields (r : Record) (x : Exchange) : r.Follows (r.wound x) ∧ (r.wound x).state = r.state
    ∧ (r.wound x).dismissPending = r.dismissPending ∧ (r.wound x).standing = r.standing
    ∧ (r.outq = x.outbound.toList → (r.wound x).outq = []) := by
  unfold Record.wound
  cases x.outbound with
  | none => exact ⟨.refl r, rfl, rfl, rfl, id⟩
  | some b => exact ⟨⟨rfl, fun e => absurd e (Reason.bit_or_ne_zero _ _)⟩, rfl, rfl, rfl, fun e => by simp [Record.uncarried, Record.addReason, e]⟩

theorem State.Sane.wound (ok : s.Sane) (hx : s.trunk.current = some x) (ht : x.target = some h)
    (hr : s.record h.slot = some r) (hs : r.state = .retiring) :
    (s.wound h.slot x).Loose ∧ (s.wound h.slot x).trunk.current = some x.released := by
  have hb := ok.carries hx ht hr
  have holds : s.holds h.slot = true := State.holds_iff.mpr ⟨x, h, hx, ht, rfl⟩
  have hq : r.outq = x.outbound.toList := by
    rw [(ok.held _ r hr hs).2]
    cases ho : x.outbound with
    | some b => rw [State.carried_iff.mpr ⟨holds, x, hx, ho⟩]
    | none =>
      cases hc : s.carried h.slot with
      | none => rfl
      | some b =>
        obtain ⟨-, y, hy, hby⟩ := State.carried_iff.mp hc
        rw [hx] at hy
        cases hy
        simp [ho] at hby
  obtain ⟨follows, state, dismiss, standing, empty⟩ := r.wound_fields x
  have fits : (r.wound x).Fits := by
    unfold Record.wound
    cases x.outbound with
    | none => exact ok.registered.fits hr
    | some b => exact Record.fits_addReason ((ok.registered.fits hr).uncarried hs b) _
  have apart : ∀ b, x.reserved = some b → b ∉ r.outq := fun b => ok.stored.reserved_apart hr hx
  have settling : (s.touch h.slot r (r.wound x) (x.reserved.toList ++ x.outbound.toList)).releaseTarget.Settling h.slot := by
    refine ok.released_touch hx ht hr follows fits standing ?_ (fun b hm => ?_) ?_ (fun b => ?_) fun b hres => ?_
    · rw [← hq]
      refine List.Nodup.append ?_ (ok.stored.outq_nodup hr) fun b hres => apart b (by simpa using hres)
      cases x.reserved <;> simp
    · rcases List.mem_append.mp hm with hm | hm
      · exact .inr (by simpa using hm)
      · exact .inl (hq ▸ hm)
    · rw [empty hq]
      exact List.nodup_nil
    · rw [empty hq, hq]
      simp only [List.not_mem_nil, List.mem_append, Option.mem_toList, false_iff, not_and, not_not]
      exact fun hm => .inr hm
    · simp [hres]
  have record := s.record_released_touch h.slot r (r.wound x) (x.reserved.toList ++ x.outbound.toList)
  have current : (s.touch h.slot r (r.wound x) (x.reserved.toList ++ x.outbound.toList)).releaseTarget.trunk.current =
      some x.released := State.releaseTarget_current (by rw [State.touch_trunk]; exact hx)
  rw [State.wound_eq_touch hr hs hb, State.settleRetiring_released (State.record_touch_same ..) (state.trans hs)]
  refine ⟨settling.settle record (state.trans hs) (empty hq), ?_⟩
  split
  · obtain ⟨-, -, trunk, -⟩ := State.enterRetired_frame
      (s.touch h.slot r (r.wound x) (x.reserved.toList ++ x.outbound.toList)).releaseTarget h.slot
    rw [trunk]
    exact current
  · exact current

/-! ### ADMIT and DISMISS -/

theorem State.Stored.congr (ok : s.Stored) (outq : t.outq = s.outq) (reserved : t.reservedBuffer = s.reservedBuffer)
    (buffers : t.pool.buffers = s.pool.buffers) (free : t.pool.free = s.pool.free)
    (queues : ∀ ch, (t.port ch).deliveryQueue = (s.port ch).deliveryQueue) : t.Stored := by
  have buffer : t.buffer = s.buffer := funext fun b => by rw [State.buffer, buffers]; rfl
  exact ok.of_places outq reserved (funext fun b => by rw [State.placeOf, buffer]; rfl)
    (fun b => by rw [buffer]; exact ok.length b) free queues

/-- A record changed, its outbound queue kept, by an exchange that has reserved no buffer and releases its target. -/
theorem State.Stored.released (ok : s.Stored) (hx : s.trunk.current = some x) (hres : x.reserved = none)
    (hr : s.record i = some r) (record : t.record = Function.update s.record i (some r')) (outq : r'.outq = r.outq)
    (current : t.trunk.current = some x.released) (pool : t.pool = s.pool)
    (queues : ∀ ch, (t.port ch).deliveryQueue = (s.port ch).deliveryQueue) : t.Stored := by
  refine ok.congr ?_ ?_ (by rw [pool]) (by rw [pool]) queues
  · have e : s.outq i = r.outq := State.outq_some hr
    rw [State.outq_update record, show ((some r').map Record.outq).getD [] = s.outq i from outq.trans e.symm,
      Function.update_eq_self]
  · rw [State.reservedBuffer_some current, State.reservedBuffer_some hx, hres]
    rfl

theorem State.Loose.post (ok : s.Loose) (i : SlotNo) (why : Reason) : (s.post i why).Loose := by
  cases hr : s.record i with
  | none => simpa [State.post, hr] using ok
  | some r =>
    by_cases hs : r.state = .retired
    · rw [State.post_retired hr hs]
      exact ok
    · have registered := ok.registered.post i why
      rw [State.post_eq_touch hr hs] at registered ⊢
      have record := s.record_touch_eq i r (r.addReason why) []
      have alike := State.alike_update hr record (r.alike_addReason why)
      have current : (s.touch i r (r.addReason why) []).trunk.current = s.trunk.current := by rw [State.touch_trunk]
      refine ⟨registered, ok.stored.of_store ?_, alike.held ok.held current, fun x hx => ok.released x (current ▸ hx)⟩
      rw [State.store, State.store, alike.outq, current, State.touch_pool, State.freeAll_nil]
      simp only [State.deliveryQueue_touch]

/-- A target that stands as it stood, of an exchange without a reserved buffer, is released. -/
theorem State.Sane.releaseTarget (ok : s.Sane) (hx : s.trunk.current = some x) (ht : x.target = some h)
    (hr : s.record h.slot = some r) (hs : r.state ≠ .retiring) (hres : x.reserved = none) : s.releaseTarget.Loose :=
  State.Settling.loose_of_ne (ok.settling hx ht (ok.registered.of_roll rfl)
    (ok.stored.released (t := s.releaseTarget) hx hres hr (Function.update_eq_self_iff.mpr hr.symm).symm rfl
      (State.releaseTarget_current hx) rfl fun ch => by cases ch <;> rfl) (fun _ _ => rfl) (State.releaseTarget_current hx))
    (i := h.slot) hr hs

/-- An ADMITTING record's attempts do not outlast its retirement. -/
theorem State.enterRetirement_attempts (hr : s.record i = some r) (n : Option Nat) (cause : RetireCause) (dismiss : Bool) :
    (s.setRecord i (some { r with admitAttempts := n })).enterRetirement i cause dismiss =
      s.enterRetirement i cause dismiss := by
  have twice : ∀ q q' : Option Record, (s.setRecord i q).setRecord i q' = s.setRecord i q' := fun q q' => by
    simp [State.setRecord, State.setSlot, State.slot, Vector.set_set]
  unfold State.enterRetirement
  rw [State.record_setRecord_same, hr]
  dsimp only
  rw [twice]
  rfl

/-- A confirmed ADMIT (R14). -/
theorem State.Sane.admitted_reply (ok : s.Sane) (hx : s.trunk.current = some x) (ht : x.target = some h)
    (hr : s.record h.slot = some r) (hs : r.state = .admitting) (hres : x.reserved = none) (v : Reply) :
    (s.admitOutcome h.slot (some v)).toGuard.Sane := by
  rw [State.admitOutcome_valid hr hs hx]
  set t : State := { s with
    registry := { s.registry with
      slots := s.registry.slots.set h.slot { s.slot h.slot with record := some { r with
        state := .active, admitAttempts := none, skip := some 0, missCount := some 0, sendSeq := 0, recvSeq := 0
        replies := min 65535 (r.replies + 1) } }
      admitQueue := s.registry.admitQueue.erase h.slot }
    poll := { s.poll with ring := s.poll.ring ++ [h.slot] }
    trunk := { s.trunk with current := some x.released } } with ht'
  have record : t.record = Function.update s.record h.slot (some r.confirmed) :=
    State.record_of_slots (x := { s.slot h.slot with record := some r.confirmed }) rfl
  have loose : t.Loose := by
    refine State.Settling.loose_of_ne (i := h.slot) (r := r.confirmed) (ok.settling hx ht ?_ ?_ (fun j hj => ?_) rfl) ?_
      fun e => nomatch (show RecState.active = .retiring from e)
    · exact ok.registered.confirm hr hs record rfl rfl rfl rfl rfl rfl rfl fun ch => by cases ch <;> rfl
    · exact ok.stored.released hx hres hr record rfl rfl rfl fun ch => by cases ch <;> rfl
    · rw [record, Function.update_of_ne hj]
    · rw [record, Function.update_self]
  refine (loose.post h.slot .admitted).toGuard (x := x.released) ?_
  rw [(State.post_frame t h.slot .admitted).2.2.1]

/-- A failed ADMIT (R15). -/
theorem State.Sane.admitted_miss (ok : s.Sane) (hx : s.trunk.current = some x) (ht : x.target = some h)
    (hr : s.record h.slot = some r) (hs : r.state = .admitting) (hres : x.reserved = none) :
    (s.admitOutcome h.slot none).toGuard.Sane := by
  rw [State.admitOutcome_miss hr hs hx]
  dsimp only
  obtain ⟨-, -, -, -, ⟨n, hn, hle⟩, -⟩ := Record.fieldsOk_admitting hs (ok.registered.fits hr).fields
  split
  · next hlt =>
    set t : State := { s with
      registry := { s.registry with
        slots := s.registry.slots.set h.slot
          { s.slot h.slot with record := some { r with admitAttempts := some (r.admitAttempts.getD 0 + 1) } }
        admitQueue := s.registry.admitQueue.erase h.slot ++ [h.slot] }
      trunk := { s.trunk with current := some x.released } } with ht'
    have record : t.record = Function.update s.record h.slot
        (some { r with admitAttempts := some (r.admitAttempts.getD 0 + 1) }) :=
      State.record_of_slots
        (x := { s.slot h.slot with record := some { r with admitAttempts := some (r.admitAttempts.getD 0 + 1) } }) rfl
    have tries : r.admitAttempts.getD 0 + 1 ≤ 2 := by omega
    refine State.Loose.toGuard (x := x.released) (State.Settling.loose_of_ne (i := h.slot)
      (r := { r with admitAttempts := some (r.admitAttempts.getD 0 + 1) }) (ok.settling hx ht ?_ ?_
      (fun j hj => ?_) rfl) (by rw [record, Function.update_self]) fun e => nomatch hs.symm.trans e) rfl
    · exact ok.registered.requeue hr hs tries record rfl rfl rfl rfl rfl rfl fun ch => by cases ch <;> rfl
    · exact ok.stored.released (r' := { r with admitAttempts := some (r.admitAttempts.getD 0 + 1) }) hx hres hr record
        rfl rfl rfl fun ch => by cases ch <;> rfl
    · rw [record, Function.update_of_ne hj]
  · have loose := ok.releaseTarget hx ht hr (by rw [hs]; decide) hres
    have current := State.releaseTarget_current hx
    have same : State.enterRetirement { s with
        registry := { s.registry with
          slots := s.registry.slots.set h.slot
            { s.slot h.slot with record := some { r with admitAttempts := some (r.admitAttempts.getD 0 + 1) } } }
        trunk := { s.trunk with current := some x.released } } h.slot .admitFailed false =
        s.releaseTarget.enterRetirement h.slot .admitFailed false := by
      rw [← State.enterRetirement_attempts (s := s.releaseTarget) hr (some (r.admitAttempts.getD 0 + 1)),
        State.releaseTarget_eq hx]
      rfl
    rw [same]
    refine (loose.enterRetirement hr (by rw [hs]; decide) (by rw [hs]; decide) .admitFailed false).toGuard
      (x := x.released) ?_
    obtain ⟨-, -, -, trunk, -⟩ := State.enterRetirement_changes (s := s.releaseTarget) hr (by rw [hs]; decide)
      .admitFailed false
    rw [trunk, current]

end Sys2Proof.Machine
end

section
/-! The events that end an exchange keep a sound state. -/

namespace Sys2Proof.Machine

variable {s t : State} {i : SlotNo} {r : Record} {x : Exchange} {h : Handle}

/-! ### Outcomes by the target's state -/

/-- The target of a POLL, DATA or ADMIT: a member, ADMITTING, or RETIRING with the buffers of its kind. -/
theorem State.Target.cases (ok : s.Target x) (ht : x.target = some h) (hk : x.kind ≠ .dismiss) :
    ∃ r, s.record h.slot = some r ∧
      ((x.kind = .poll ∨ x.kind = .data) ∧ r.state.isMember = true
        ∨ x.kind = .admitExchange ∧ r.state = .admitting ∧ x.reserved = none ∧ x.outbound = none
        ∨ r.state = .retiring ∧ ((x.kind = .poll ∨ x.kind = .data)
            ∨ x.kind = .admitExchange ∧ x.reserved = none ∧ x.outbound = none)) := by
  cases ok with
  | invite _ rel =>
    rw [Exchange.target_of_released rel] at ht
    cases ht
  | poll g r kind target _ record state =>
    rw [ht] at target
    cases target
    exact ⟨r, record, state.elim (fun hm => .inl ⟨.inl kind, hm⟩) fun hs => .inr (.inr ⟨hs, .inl (.inl kind)⟩)⟩
  | data g r b kind target _ record state =>
    rw [ht] at target
    cases target
    exact ⟨r, record, state.elim (fun hm => .inl ⟨.inr kind, hm⟩) fun hs => .inr (.inr ⟨hs, .inl (.inr kind)⟩)⟩
  | admits g r kind target _ record state _ outbound reserved =>
    rw [ht] at target
    cases target
    exact ⟨r, record, state.elim (fun hs => .inr (.inl ⟨kind, hs, reserved, outbound⟩))
      fun hs => .inr (.inr ⟨hs, .inr ⟨kind, reserved, outbound⟩⟩)⟩
  | dismiss _ kind => exact absurd kind hk

theorem State.Sane.wound_toGuard (ok : s.Sane) (hx : s.trunk.current = some x) (ht : x.target = some h)
    (hr : s.record h.slot = some r) (hs : r.state = .retiring) : (s.wound h.slot x).toGuard.Sane := by
  obtain ⟨loose, current⟩ := ok.wound hx ht hr hs
  exact loose.toGuard current

/-- A miss, whatever the target's state is (R88, R85, R21). -/
theorem State.Sane.outcome_none (ok : s.Sane) (settings : s.SettingsOk) (hx : s.trunk.current = some x)
    (ht : x.target = some h) (hk : x.kind ≠ .dismiss) : (s.outcome none).Sane := by
  have missing : s.faultMiss.Sane := ok.of_view rfl
  obtain ⟨r, hr, ⟨hk, hm⟩ | ⟨hk, hs, hres, -⟩ | ⟨hs, hk⟩⟩ := (ok.target hx ht).cases ht hk
  · exact ok.outcome_none_member settings hx hk ht hr hm
  · rw [State.outcome_admit hx hk ht]
    exact missing.admitted_miss hx ht hr hs hres
  · rw [State.outcome_retiring hx ht hr hs hk none fun _ => rfl]
    exact missing.wound_toGuard hx ht hr hs

/-- A reply judged (R65, R88, R85, R21). -/
theorem State.Sane.replyEnds (ok : s.Sane) (settings : s.SettingsOk) (hx : s.trunk.current = some x)
    (ht : x.target = some h) (hk : x.kind ≠ .dismiss) (bytes : List Byte) (lost : Bool) :
    (s.replyEnds bytes lost).Sane := by
  have taken := ok.takePayload (dataPayloadTaken bytes lost)
  have hx' : (s.takePayload (dataPayloadTaken bytes lost)).trunk.current = some x := by
    rw [State.takePayload_frame]; exact hx
  cases hv : judge x.kind s.expectedAddress (receive bytes lost) with
  | invalid e =>
    rw [State.replyEnds_invalid hx hv]
    refine State.Sane.outcome_none (taken.of_view rfl) ?_ hx' ht hk
    exact ((State.regular_takePayload s _).trans (State.regular_updCounters _ fun c h =>
      Counters.ok_countReply (c := c) h e)).tame.settings settings
  | valid v =>
    obtain ⟨r, hr, ⟨hk, hm⟩ | ⟨hk, hs, hres, -⟩ | ⟨hs, hk⟩⟩ := (ok.target hx ht).cases ht hk
    · exact ok.replyEnds_member settings hx hk ht hr hm hv
    · have ends : s.replyEnds bytes lost = (s.faultClear.admitOutcome h.slot (some v)).toGuard := by
        have e : s.takePayload (dataPayloadTaken bytes lost) = s := by rw [State.takePayload_eq hx, hres]
        rw [State.replyEnds, State.exchangeKind, hx, Option.map_some]
        dsimp only
        rw [e, hv]
        dsimp only
        rw [State.takeLength_none hx (.inl hres), State.returnLength_none hx (.inl hres), State.outcome_admit hx hk ht]
        rfl
      rw [ends]
      exact State.Sane.admitted_reply (s := s.faultClear) (ok.of_view rfl) hx ht hr hs hres v
    · rw [State.replyEnds_valid_retiring hx ht hr hs hk hv]
      have heard : (s.takePayload (dataPayloadTaken bytes lost)).faultClear.Sane := taken.of_view rfl
      refine (heard.countSequence r v).wound_toGuard (r := r) ?_ ht ?_ hs
      · rw [State.countSequence_trunk]
        exact hx'
      · refine ((State.sameRecords_countSequence _ r v).record h.slot).trans ?_
        rw [State.takePayload_frame]
        exact hr

/-! ### DISMISS -/

/-- In SENDING and AWAITING the exchange is one in progress. -/
theorem State.Sane.live (ok : s.Sane) (hx : s.trunk.current = some x)
    (line : s.trunk.line = .sending ∨ s.trunk.line = .awaiting) : s.Target x := by
  cases ok.phase with
  | rest _ n => simp [hx] at n
  | guard l =>
    rw [l] at line
    rcases line with line | line <;> cases line
  | live y _ hy target =>
    rw [hx] at hy
    cases hy
    exact target

/-- The record at the head of the Dismissal Queue, which a DISMISS holds. -/
theorem State.Sane.dismissing (ok : s.Sane) (hx : s.trunk.current = some x) (target : s.Target x) (hk : x.kind = .dismiss) :
    ∃ h r, x.target = some h ∧ s.record h.slot = some r ∧ r.state = .retiring ∧ r.outq = [] ∧ x.reserved = none := by
  cases target with
  | invite kind | poll _ _ kind | data _ _ _ kind | admits _ _ kind =>
    rw [kind] at hk
    cases hk
  | dismiss h _ ht _ head _ outbound reserved =>
    obtain ⟨r, hr⟩ := ok.registered.queues.dismissing head
    have marked := (ok.registered.queues.dismiss.2 h.slot).mp (List.mem_of_head? head)
    rw [State.standing_some hr, Marked, Option.any_some, Record.standing_eq] at marked
    have hs : r.state = .retiring := by simpa using (Bool.and_eq_true_iff.mp marked).1
    refine ⟨h, r, ht, hr, hs, ?_, reserved⟩
    rw [(ok.held _ r hr hs).2]
    cases hc : s.carried h.slot with
    | none => rfl
    | some b =>
      obtain ⟨-, y, hy, hb⟩ := State.carried_iff.mp hc
      rw [hx] at hy
      cases hy
      simp [outbound] at hb

/-- The frame of a DISMISS sent in full, or cut short (R10, R22, R62, R84). -/
theorem State.Sane.dismissOutcome (ok : s.Sane) (hx : s.trunk.current = some x) (target : s.Target x)
    (hk : x.kind = .dismiss) : s.dismissOutcome.Sane := by
  obtain ⟨h, r, ht, hr, hs, hq, hres⟩ := ok.dismissing hx target hk
  rw [State.dismissOutcome_eq hx ht hr hs]
  set t : State := { s with
    registry := { s.registry with
      slots := s.registry.slots.set h.slot { s.slot h.slot with record := some { r with dismissPending := some false } }
      dismissQueue := s.registry.dismissQueue.erase h.slot }
    trunk := { s.trunk with current := some x.released } } with ht'
  have record : t.record = Function.update s.record h.slot (some { r with dismissPending := some false }) :=
    State.record_of_slots (x := { s.slot h.slot with record := some { r with dismissPending := some false } }) rfl
  have settling : t.Settling h.slot := by
    refine ok.settling hx ht ?_ ?_ (fun j hj => ?_) rfl
    · exact ok.registered.dismissed hr hs record rfl rfl rfl rfl rfl rfl fun ch => by cases ch <;> rfl
    · exact ok.stored.released (r' := { r with dismissPending := some false }) hx hres hr record rfl rfl rfl
        fun ch => by cases ch <;> rfl
    · rw [record, Function.update_of_ne hj]
  have loose := settling.settle (r := { r with dismissPending := some false }) (by rw [record, Function.update_self]) hs hq
  obtain ⟨-, -, trunk, -⟩ := State.enterRetired_frame t h.slot
  exact loose.toGuard (x := x.released) (by rw [trunk])

/-! ### The end of a guard, and of a drain -/

/-- A channel's half without its lists. -/
theorem State.Sane.setPort (ok : s.Sane) (ch : Channel) {p : Port} (list : p.changeList = (s.port ch).changeList)
    (queue : p.deliveryQueue = (s.port ch).deliveryQueue) : (s.setPort ch p).Sane := by
  have ports : ∀ c, ((s.setPort ch p).port c).changeList = (s.port c).changeList
      ∧ ((s.setPort ch p).port c).deliveryQueue = (s.port c).deliveryQueue := fun c => by
    rw [State.port_setPort]
    split
    · next e => exact ⟨list.trans (by rw [e]), queue.trans (by rw [e])⟩
    · exact ⟨rfl, rfl⟩
  refine ok.of_view ?_
  have lists := funext fun c => (ports c).1
  have queues := funext fun c => (ports c).2
  unfold State.view State.roll State.store
  rw [lists, queues]
  cases ch <;> rfl

theorem State.Sane.complete (ok : s.Sane) (ch : Channel) (code : ResultCode) (ws : List Word) :
    (s.complete ch code ws).Sane := ok.setPort ch rfl rfl

theorem State.Sane.fail (ok : s.Sane) (ch : Channel) (code : ResultCode) : (s.fail ch code).Sane := ok.complete ch code []

theorem State.Sane.endDrain (ok : s.Sane) (ended : Nat) : (s.endDrain ended).Sane := by
  unfold State.endDrain
  split
  · exact ok
  · next d _ =>
    have drained : (s.updTrunk fun t => { t with drain := none }).Sane := ok.of_view rfl
    exact drained.complete d.channel .ok _

theorem State.Sane.guardRunsOut (ok : s.Sane) (settings : s.SettingsOk) (line : s.trunk.line = .guard) :
    s.guardRunsOut.Sane := by
  have loose := ok.loose (by rw [line]; decide) (by rw [line]; decide)
  unfold State.guardRunsOut
  split
  · exact loose.toOff.endDrain _
  · have freed : (s.updTrunk fun t => { t with current := none, guardTimer := none }).Loose :=
      loose.of_eq rfl rfl rfl (fun ch => by cases ch <;> rfl) fun x hx => by cases hx
    dsimp only
    split
    · exact freed.rests rfl rfl rfl (fun ch => by cases ch <;> rfl) rfl (.inr (.inr rfl))
        fun e => nomatch (show LineState.fault = .off from e)
    · refine freed.enterIdle ?_ rfl
      exact (State.regular_updTrunk s rfl rfl rfl rfl id).tame.settings settings

/-! ### Cut short and aborted -/

theorem State.Sane.invite_loose (ok : s.Sane) (hx : s.trunk.current = some x) (target : s.Target x)
    (hk : x.kind = .invite) : s.Loose := by
  refine ⟨ok.registered, ok.stored, ok.held, fun y hy => ?_⟩
  rw [hx] at hy
  cases hy
  cases target with
  | invite _ rel => exact rel
  | poll _ _ kind | data _ _ _ kind | admits _ _ kind | dismiss _ kind =>
    rw [kind] at hk
    cases hk

/-- Every kind but INVITE has a target. -/
theorem State.Target.some (target : s.Target x) (hk : x.kind ≠ .invite) : ∃ h, x.target = some h := by
  cases target with
  | invite kind => exact absurd kind hk
  | poll h _ _ ht | data h _ _ _ ht | admits h _ _ ht | dismiss h _ ht => exact ⟨h, ht⟩

theorem State.Sane.missByTimeout (ok : s.Sane) (settings : s.SettingsOk) (hx : s.trunk.current = some x)
    (ht : x.target = some h) (hk : x.kind ≠ .dismiss) : s.missByTimeout.Sane :=
  State.Sane.outcome_none (s := s.updCounters fun c => { c with timeout := countUp c.timeout }) (ok.of_view rfl)
    ((State.regular_updCounters s fun c h => Counters.ok_timeout (c := c) h).tame.settings settings) hx ht hk

theorem State.Sane.cutShort (ok : s.Sane) (settings : s.SettingsOk) (line : s.trunk.line = .sending) : s.cutShort.Sane := by
  unfold State.cutShort
  unfold State.exchangeKind
  cases hx : s.trunk.current with
  | none => exact ok
  | some x =>
    have target := ok.live hx (.inl line)
    rw [Option.map_some]
    cases hk : x.kind
    case invite => exact (ok.invite_loose hx target hk).toGuard hx
    case dismiss => exact ok.dismissOutcome hx target hk
    all_goals
      obtain ⟨h, ht⟩ := target.some (by rw [hk]; decide)
      exact ok.missByTimeout settings hx ht (by rw [hk]; decide)

theorem State.Sane.dropReception (ok : s.Sane) : s.dropReception.Sane :=
  ok.of_view (by rw [State.dropReception_frame]; rfl)

/-- A target that stands as it stood is released, with the reserved buffer given back. -/
theorem State.Sane.freeReserved (ok : s.Sane) (hx : s.trunk.current = some x) (ht : x.target = some h)
    (hr : s.record h.slot = some r) (hs : r.state ≠ .retiring) : (s.freeReserved x).releaseTarget.Loose := by
  have e : s.freeReserved x = s.touch h.slot r r x.reserved.toList := by
    rw [State.touch_self hr]
    unfold State.freeReserved
    cases x.reserved <;> rfl
  rw [e]
  refine State.Settling.loose_of_ne (i := h.slot) (ok.released_touch hx ht hr (.refl r) (ok.registered.fits hr) rfl ?_
    (fun b hb => .inr (by simpa using hb)) (ok.stored.outq_nodup hr) (fun b => ?_) fun b hb => by simp [hb])
    (State.record_released_touch ..) hs
  · cases x.reserved <;> simp
  · exact ⟨fun hb => ⟨hb, fun hres => ok.stored.reserved_apart hr hx (by simpa using hres) hb⟩, fun hb => hb.1⟩

/-- An exchange in progress ended by abort (R108). -/
theorem State.Sane.abortExchange (ok : s.Sane) (line : s.trunk.line = .sending ∨ s.trunk.line = .awaiting) :
    s.abortExchange.Loose := by
  cases ok.phase with
  | rest l _ | guard l =>
    rcases line with line | line <;> simp [line] at l
  | live x _ hx target =>
    have dropped := ok.dropReception
    by_cases hk : x.kind = .invite
    · have loose := ok.invite_loose hx target hk
      have none := Exchange.target_of_released (loose.released x hx)
      obtain ⟨kind, tg, ns, ob, rs⟩ := x
      dsimp only at none
      subst none
      unfold State.abortExchange
      rw [hx]
      exact loose
    · obtain ⟨h, ht⟩ := target.some hk
      have hx' : s.dropReception.trunk.current = some x := by
        rw [State.dropReception_frame]
        exact hx
      obtain ⟨r, hr⟩ : ∃ r, s.record h.slot = some r := by
        by_cases hd : x.kind = .dismiss
        · obtain ⟨g, r, hg, hr, -⟩ := ok.dismissing hx target hd
          rw [ht] at hg
          cases hg
          exact ⟨r, hr⟩
        · obtain ⟨r, hr, -⟩ := target.cases ht hd
          exact ⟨r, hr⟩
      have hr' : s.dropReception.record h.slot = some r := by
        rw [State.dropReception_frame]
        exact hr
      rw [State.abortExchange_eq hx ht hr]
      split
      · next hs => exact (dropped.wound hx' ht hr' hs).1
      · next hs => exact dropped.freeReserved hx' ht hr' hs

end Sys2Proof.Machine
end

section
/-! Admissions, candidates and invitations keep a sound state. -/

namespace Sys2Proof.Machine

variable {s t : State} {i : SlotNo} {r : Record} {x : Exchange} {identity : List Byte}

/-! ### Addresses and admissions -/

/-- The allocator's address is in the range and free (R145). -/
theorem State.allocateAddress_some {a : Byte} (settings : s.SettingsOk) (h : s.allocateAddress = some a) :
    within 1 a.toNat 254 = true ∧ s.lookup a = none := by
  obtain ⟨-, -, -, ⟨-, -, -, low, high, -⟩, -⟩ := settings
  have lower := (within_iff.mp low).1
  have upper := (within_iff.mp high).2
  unfold State.allocateAddress at h
  rw [Option.map_eq_some_iff] at h
  obtain ⟨n, hn, rfl⟩ := h
  have mem := List.mem_range'_1.mp (List.mem_of_find?_eq_some hn)
  have free := List.find?_some hn
  have small : (BitVec.ofNat 8 n).toNat = n := by
    rw [BitVec.toNat_ofNat]
    omega
  refine ⟨?_, Option.isNone_iff_eq_none.mp free⟩
  rw [small]
  exact within_iff.mpr (by omega)

/-- An identity that no record counts under. -/
def State.Unnamed (s : State) (identity : List Byte) : Prop := ∀ j b, s.counted j ≠ some (b, identity)

theorem State.Sane.attempt (ok : s.Sane) (settings : s.SettingsOk) (hid : within 1 identity.length 16 = true)
    (new : s.Unnamed identity) {cls : Class} {owner : Channel} (h : s.attempt identity cls owner = some t) : t.Sane := by
  rw [State.attempt_eq] at h
  split at h
  · next a i rest ha hf =>
    cases h
    obtain ⟨range, free⟩ := State.allocateAddress_some settings ha
    exact ok.admitted hf range hid cls owner free new
  · cases h

theorem State.attempt_identities {cls : Class} {owner : Channel} (h : s.attempt identity cls owner = some t) :
    t.adm.candidates = s.adm.candidates.filter fun c => c.identity ≠ identity := by
  obtain ⟨_, _, _, -, -, rfl⟩ := State.attempt_cases s identity cls owner h
  rfl

/-- The retries take candidates of the list (R146). -/
theorem State.Sane.retryAmong (cs : List Candidate) : ∀ s : State, s.Sane → s.SettingsOk →
    cs.Sublist s.adm.candidates → (s.retryAmong cs).1.Sane := by
  induction cs with
  | nil => exact fun s ok _ _ => ok
  | cons c cs ih =>
    intro s ok settings sub
    unfold State.retryAmong
    split
    · exact ih s ok settings (List.sublist_of_cons_sublist sub)
    · split
      · exact ok
      · next t h =>
        have mem : c ∈ s.adm.candidates := sub.subset (List.mem_cons_self ..)
        have hid : within 1 c.identity.length 16 = true := by
          obtain ⟨-, -, -, -, -, ⟨-, -, each⟩, -⟩ := settings
          exact (each c mem).2
        have new : s.Unnamed c.identity := ok.registered.naming.apart c.identity (List.mem_map_of_mem mem)
        refine ih t (ok.attempt settings hid new h) ((State.regular_attempt h).tame.settings settings) ?_
        rw [State.attempt_identities h]
        have apart : ∀ d ∈ cs, d.identity ≠ c.identity := by
          have nodup := (ok.registered.naming.candidates : (s.adm.candidates.map Candidate.identity).Nodup).sublist
            (sub.map Candidate.identity)
          rw [List.map_cons, List.nodup_cons] at nodup
          exact fun d hd e => nodup.1 (e ▸ List.mem_map_of_mem hd)
        have kept : cs = cs.filter fun d => d.identity ≠ c.identity :=
          (List.filter_eq_self.mpr fun d hd => by simpa using apart d hd).symm
        rw [kept]
        exact (List.sublist_of_cons_sublist sub).filter _

theorem State.Sane.retryDeferred (ok : s.Sane) (settings : s.SettingsOk) : s.retryDeferred.1.Sane :=
  State.Sane.retryAmong _ s ok settings (List.Sublist.refl _)

/-! ### Candidates -/

theorem State.addCandidate_frame (s : State) (identity : List Byte) (d : Disposition) :
    (s.addCandidate identity d).registry = s.registry ∧ (s.addCandidate identity d).store = s.store
      ∧ (s.addCandidate identity d).trunk.line = s.trunk.line
      ∧ (s.addCandidate identity d).trunk.current = s.trunk.current
      ∧ (s.addCandidate identity d).trunk.hunt = s.trunk.hunt := by
  unfold State.addCandidate
  split <;> exact ⟨rfl, rfl, rfl, rfl, rfl⟩

theorem State.Sane.addCandidate (ok : s.Sane) (out : identity ∉ s.identities) (new : s.Unnamed identity) (d : Disposition) :
    (s.addCandidate identity d).Sane := by
  obtain ⟨registry, store, line, current, hunt⟩ := s.addCandidate_frame identity d
  exact ⟨ok.registered.addCandidate out new d, ok.stored.of_store store,
    ok.held.congr (State.record_of_registry registry) current, ok.phase.congr registry line current,
    ok.hunt.congr line hunt⟩

theorem State.Sane.attemptOrDefer (ok : s.Sane) (settings : s.SettingsOk) (hid : within 1 identity.length 16 = true)
    (out : identity ∉ s.identities) (new : s.Unnamed identity) (cls : Class) (owner : Channel) :
    (s.attemptOrDefer identity cls owner).Sane := by
  unfold State.attemptOrDefer
  split
  · next h => exact ok.attempt settings hid new h
  · exact ok.addCandidate out new _

theorem State.Sane.filterJoin (ok : s.Sane) (settings : s.SettingsOk) (hid : within 1 identity.length 16 = true)
    (out : identity ∉ s.identities) (new : s.Unnamed identity) : (s.filterJoin identity).Sane := by
  unfold State.filterJoin
  split
  · split
    · exact ok.attemptOrDefer settings hid out new _ _
    · exact ok.of_view rfl
  · exact ok.addCandidate out new _

/-- A retired record's identity names no record (R7). -/
theorem State.Sane.unnamed_retired (ok : s.Sane) (hr : s.record i = some r) (hs : r.state ≠ .retired)
    (hh : s.holds i = false) (cause : RetireCause) : (s.enterRetirement i cause false).Unnamed r.identity := by
  obtain ⟨record, -⟩ := State.enterRetirement_changes hr hs cause false
  have counted := State.counted_update (State.standing_update record)
  intro j b hj
  rw [counted] at hj
  by_cases hji : j = i
  · rw [hji, Function.update_self, hh] at hj
    cases hj
  · rw [Function.update_of_ne hji] at hj
    exact hji (ok.registered.naming.identity j i _ _ _ hj (State.counted_of_ne_retired hr hs))

theorem State.findIdentity_some (h : s.findIdentity identity = some i) : ∃ r, s.record i = some r ∧ r.identity = identity := by
  rw [State.findIdentity_eq] at h
  obtain ⟨r, hr, found⟩ := State.recordIs_iff.mp (allSlots_find?_eq_some.mp h).1
  exact ⟨r, hr, by simpa using (Bool.and_eq_true_iff.mp found).2⟩

/-- The evaluation of a JOIN while no exchange holds a record (R134 to R137). -/
theorem State.Sane.evaluateJoin (ok : s.Sane) (settings : s.SettingsOk) (hid : within 1 identity.length 16 = true)
    (free : ∀ i, s.holds i = false) : (s.evaluateJoin identity).Sane := by
  unfold State.evaluateJoin
  split
  · next c hc =>
    have mem := List.mem_of_find?_eq_some hc
    have same : c.identity = identity := by simpa using List.find?_some hc
    have new : s.Unnamed identity := same ▸ ok.registered.naming.apart c.identity (List.mem_map_of_mem mem)
    split
    · exact ok
    · split
      · next h => exact ok.attempt settings hid new h
      · exact ok
  · next hc =>
    have out : identity ∉ s.identities := fun hm => by
      obtain ⟨c, hm, e⟩ := List.mem_map.mp hm
      have := List.find?_eq_none.mp hc c hm
      simp [e] at this
    split
    · next i hi =>
      split
      · next r hr =>
        split
        · next hm =>
          have ne := RecState.isMember_ne_retiring hm
          have ne' := RecState.isMember_ne_retired hm
          obtain ⟨q, hq, rfl⟩ := State.findIdentity_some hi
          rw [hr] at hq
          cases hq
          have retired := ok.enterRetirement hr ne ne' .rejoined false
          refine retired.attemptOrDefer ?_ hid ?_ (ok.unnamed_retired hr ne' (free i) .rejoined) _ _
          · exact (State.Regular.of_essence (State.essence_enterRetirement s i .rejoined false)).tame.settings settings
          · obtain ⟨-, -, -, -, adm⟩ := State.enterRetirement_changes hr ne' .rejoined false
            rw [State.identities, adm]
            exact out
        · exact ok
      · exact ok
    · next hn => exact ok.filterJoin settings hid out (State.findIdentity_eq_none.mp hn)

/-! ### The join window -/

theorem State.attempt_current {cls : Class} {owner : Channel} (h : s.attempt identity cls owner = some t) :
    t.trunk.current = s.trunk.current := by
  obtain ⟨-, -, trunk, -⟩ := State.attempt_frame s identity cls owner h
  rw [trunk]

theorem State.attemptOrDefer_current (s : State) (identity : List Byte) (cls : Class) (owner : Channel) :
    (s.attemptOrDefer identity cls owner).trunk.current = s.trunk.current := by
  unfold State.attemptOrDefer
  split
  · next h => exact State.attempt_current h
  · exact (s.addCandidate_frame identity _).2.2.2.1

theorem State.filterJoin_current (s : State) (identity : List Byte) :
    (s.filterJoin identity).trunk.current = s.trunk.current := by
  unfold State.filterJoin
  split
  · split
    · exact s.attemptOrDefer_current identity _ _
    · rfl
  · exact (s.addCandidate_frame identity _).2.2.2.1

/-- The evaluation of a JOIN leaves the exchange. -/
theorem State.evaluateJoin_current (s : State) (identity : List Byte) :
    (s.evaluateJoin identity).trunk.current = s.trunk.current := by
  unfold State.evaluateJoin
  split
  · split
    · rfl
    · split
      · next h => exact State.attempt_current h
      · rfl
  · split
    · split
      · next r hr =>
        split
        · next hm =>
          obtain ⟨-, -, -, trunk, -⟩ :=
            State.enterRetirement_changes hr (RecState.isMember_ne_retired hm) .rejoined false
          refine (State.attemptOrDefer_current _ identity r.cls r.owner).trans ?_
          rw [trunk]
        · rfl
      · rfl
    · exact s.filterJoin_current identity

theorem State.Sane.stepLapses (ok : s.Sane) (heard : Option (List Byte)) : (s.stepLapses heard).Sane :=
  ok.candidates (Candidate.lapseStep_map_sublist Candidate.identity (fun _ _ => rfl) ..)

/-- A join window ends (R66, R86, R132). -/
theorem State.Sane.endInvitation (ok : s.Sane) (settings : s.SettingsOk) (hx : s.trunk.current = some x)
    (target : s.Target x) (hk : x.kind = .invite) {join : Option (List Byte)}
    (hid : ∀ identity, join = some identity → within 1 identity.length 16 = true) : (s.endInvitation join).Sane := by
  have released := (ok.invite_loose hx target hk).released
  have guard : ∀ t : State, t.Sane → t.trunk.current = s.trunk.current → t.toGuard.Sane := fun t tok current =>
    State.Loose.toGuard (x := x) ⟨tok.registered, tok.stored, tok.held, fun y hy => released y (current ▸ hy)⟩
      (current.trans hx)
  unfold State.endInvitation
  split
  · next identity =>
    have cleared : s.faultClear.Sane := ok.of_view rfl
    have lapsed := cleared.stepLapses (some identity)
    have free : ∀ i, (s.faultClear.stepLapses (some identity)).holds i = false := fun i =>
      State.not_holds fun y hy => Exchange.target_of_released (released y hy)
    refine guard _ (lapsed.evaluateJoin ?_ (hid identity rfl) free) (State.evaluateJoin_current _ identity)
    exact ((State.regular_faultClear s).trans (State.regular_stepLapses _ (some identity))).tame.settings settings
  · exact guard _ (ok.stepLapses none) rfl

theorem State.Sane.joinEnds (ok : s.Sane) (settings : s.SettingsOk) (hx : s.trunk.current = some x)
    (target : s.Target x) (hk : x.kind = .invite) (bytes : List Byte) (lost : Bool) : (s.joinEnds bytes lost).Sane := by
  unfold State.joinEnds
  split
  · next v hv =>
    split
    · next identity hj =>
      refine ok.endInvitation settings hx target hk fun j e => ?_
      cases e
      exact within_iff.mpr ((judge_valid_ranges hv).1 identity hj)
    all_goals exact ok
  · next e _ =>
    have counted : (s.updCounters fun c => c.countJoin e).Sane := ok.of_view rfl
    dsimp only
    split
    · refine counted.endInvitation ?_ hx (target.of_registry rfl) hk fun _ h => nomatch h
      exact (State.regular_updCounters s fun c h => Counters.ok_countJoin (c := c) h e).tame.settings settings
    · exact counted.of_view rfl

end Sys2Proof.Machine
end

section
/-! The registry commands and SET POLLING keep a sound state. -/

namespace Sys2Proof.Machine

variable {s t : State} {i : SlotNo} {r r' : Record} {ch : Channel}

/-! ### The checks of a command -/

theorem State.Sane.onChannel0 (ok : s.Sane) {k : State} (hk : k.Sane) : (onChannel0 ch s k).Sane := by
  cases ch
  · exact hk
  · exact ok.fail _ _

/-- The checks of a command that names a record: its arguments stand in what it does. -/
theorem State.Sane.withRecord_args (ok : s.Sane) {changes argsOk : Bool} {k : SlotNo → Record → State}
    (hk : argsOk = true → ∀ i r, s.record i = some r → (k i r).Sane) : (withRecord ch s changes argsOk k).Sane := by
  unfold Machine.withRecord
  split
  · exact ok.fail _ _
  · split
    · next args =>
      split
      · exact ok.fail _ _
      · next r hr =>
        split
        · exact ok.fail _ _
        · split
          · exact ok.fail _ _
          · exact hk args _ r hr
    · exact ok.fail _ _

theorem State.Sane.withRecord (ok : s.Sane) {changes argsOk : Bool} {k : SlotNo → Record → State}
    (hk : ∀ i r, s.record i = some r → (k i r).Sane) : (withRecord ch s changes argsOk k).Sane :=
  ok.withRecord_args fun _ => hk

theorem State.Sane.ite {p : Prop} [Decidable p] {u v : State} (a : p → u.Sane) (b : ¬ p → v.Sane) :
    (if p then u else v).Sane := by
  split
  · next h => exact a h
  · next h => exact b h

/-- A completion is an answer. -/
theorem State.Sane.answer (ok : s.Sane) (ch : Channel) (code : ResultCode) (ws : List Word) : (s.answer ch code ws).Sane :=
  ok.setPort ch rfl rfl

/-- A buffer held by a channel is in no list, and its length may change (R156, R173). -/
theorem State.Sane.stageOut (ok : s.Sane) {item : List Byte} (h : item.length ≤ 120) (b : BufNo) : (s.stageOut b item).Sane := by
  have written : (s.writeBuffer b item).Sane := ok.of_view rfl
  exact written.setLength h b

/-! ### ENROL and RETIRE -/

theorem bufferBytes_length (s : State) (b : BufNo) (n : Nat) : (s.bufferBytes b n).length = n := by
  simp [State.bufferBytes]

theorem State.Sane.enrol (ok : s.Sane) (settings : s.SettingsOk) {address : Byte} {identity : List Byte}
    (ha : within 1 address.toNat 254 = true) (hid : within 1 identity.length 16 = true) (free : s.lookup address = none)
    (new : s.Unnamed identity) (ch : Channel) (cls : Class) (owner : Channel) :
    (s.enrol ch address identity cls owner).Sane := by
  rw [State.enrol_eq]
  split
  · exact ok.answer ..
  · next i rest hf =>
    have hi := State.standing_eq_none.mp (ok.registered.queues.free_slot hf)
    have enrolled := ok.created (ok.registered.enrolled hf ha hid cls owner free new) hi
      (y := { gen := (s.slot i).gen + 1, record := some (Record.fresh .active address identity cls owner) }) rfl
      (fun r' e => by cases e; exact ⟨rfl, fun e => nomatch (show RecState.active = .retiring from e)⟩) rfl rfl rfl
      fun ch => by cases ch <;> rfl
    have enrolledSettings := (State.regular_removeCandidate s identity).tame.settings settings
    dsimp only
    refine State.Sane.answer ?_ ..
    split
    · exact enrolled.wake enrolledSettings
    · exact enrolled

theorem State.Sane.bodyEnrol (ok : s.Sane) (settings : s.SettingsOk) : (bodyEnrol ch s).Sane := by
  unfold Machine.bodyEnrol
  refine ok.onChannel0 ?_
  split
  · next cls owner b _ _ =>
    split
    · next hrange =>
      obtain ⟨ha, hn⟩ := Bool.and_eq_true_iff.mp hrange
      have ha := of_decide_eq_true ha
      have small : (loByte (s.arg ch 0)).toNat = (s.arg ch 0).toNat := by
        rw [loByte, BitVec.toNat_setWidth]
        omega
      dsimp only
      refine .ite (fun _ => ok.fail ..) fun _ => .ite (fun _ => ok.fail ..) fun hfree =>
        .ite (fun _ => ok.fail ..) fun hnew => ok.enrol settings ?_ ?_ ?_ ?_ ..
      · rw [small]
        exact within_iff.mpr ha
      · rw [bufferBytes_length]
        exact hn
      · simpa using hfree
      · exact State.findIdentity_eq_none.mp (by simpa using hnew)
    · exact ok.fail ..
  · exact ok.fail ..

theorem State.Sane.bodyRetire (ok : s.Sane) (settings : s.SettingsOk) : (bodyRetire ch s).Sane := by
  unfold Machine.bodyRetire
  refine ok.withRecord fun i r hr => ?_
  have retired : r.state ≠ .retiring → r.state ≠ .retired → ∀ dismiss : Bool,
      (if dismiss then (s.enterRetirement i .host dismiss).wake else s.enterRetirement i .host dismiss).Sane :=
    fun hs hs' dismiss => by
      have entered := ok.enterRetirement hr hs hs' .host dismiss
      exact .ite (fun _ => entered.wake ((State.Regular.of_essence
        (State.essence_enterRetirement s i .host dismiss)).tame.settings settings)) fun _ => entered
  split
  · exact ok.fail ..
  · exact ok.fail ..
  all_goals
    next hs => exact (retired (by rw [hs]; decide) (by rw [hs]; decide) _).complete ..

/-! ### Changes of one record -/

theorem State.Sane.bodySuspend (ok : s.Sane) : (bodySuspend ch s).Sane := by
  unfold Machine.bodySuspend
  refine ok.withRecord fun i r hr => ?_
  have suspended : r.state.isMember = true → (s.setRecord i (some { r with state := .suspended, failedProbes := none })).Sane :=
    fun hm => by
      have same : r.SameMember { r with state := .suspended, failedProbes := none } := ⟨fun _ => rfl, rfl, rfl⟩
      refine ok.setRecord (r' := { r with state := .suspended, failedProbes := none }) hr ⟨same.standing hm,
        iff_of_false (fun e => nomatch (show RecState.suspended = .retiring from e)) (RecState.isMember_ne_retiring hm), rfl, rfl⟩
        ((ok.registered.fits hr).suspended hm) rfl rfl
  split
  · next hs => exact (suspended (by rw [hs]; rfl)).complete ..
  · next hs => exact (suspended (by rw [hs]; rfl)).complete ..
  all_goals exact ok.fail ..

theorem State.Sane.bodyResume (ok : s.Sane) : (bodyResume ch s).Sane := by
  unfold Machine.bodyResume
  refine ok.withRecord fun i r hr => ?_
  split
  case h_1 hs =>
    have hm : r.state.isMember = true := by rw [hs]; rfl
    have probes : r.failedProbes = none := Record.fieldsOk_suspended hs (ok.registered.fits hr).fields
    have same : r.SameMember { r with state := .active, missCount := some 0, skip := some 0 } := ⟨fun _ => rfl, rfl, rfl⟩
    have fits : Record.Fits { r with state := .active, missCount := some 0, skip := some 0 } := by
      have := (ok.registered.fits hr).active hm (k := 0) (Nat.zero_le _)
      rwa [← probes] at this
    refine State.Sane.complete ?_ ..
    exact ok.setRecord (r' := { r with state := .active, missCount := some 0, skip := some 0 }) hr ⟨same.standing hm,
      iff_of_false (fun e => nomatch (show RecState.active = .retiring from e)) (RecState.isMember_ne_retiring hm), rfl, rfl⟩
      fits rfl rfl
  all_goals exact ok.fail ..

theorem State.Sane.bodySetClass (ok : s.Sane) (settings : s.SettingsOk) : (bodySetClass ch s).Sane := by
  unfold Machine.bodySetClass
  refine ok.withRecord fun i r hr => ?_
  have classed : ∀ cls, (s.setRecord i (some { r with
      cls := cls, skip := classSkip s.poll.slowDivisor r.state cls r.skip })).Sane := fun cls =>
    ok.setRecord (r' := { r with cls := cls, skip := classSkip s.poll.slowDivisor r.state cls r.skip }) hr
      ⟨rfl, Iff.rfl, rfl, rfl⟩ ((ok.registered.fits hr).classed settings.slowDivisor_le cls) rfl rfl
  split
  · exact ok.fail ..
  · exact ok.fail ..
  all_goals
    dsimp only
    exact .ite (fun _ => ok.complete ..) fun _ => (classed _).complete ..

/-- A record given to the other channel: its entry moves from one Change List to the other (R31, R179). -/
theorem State.Sane.transferRecord (ok : s.Sane) (hr : s.record i = some r) {owner : Channel} (new : owner ≠ r.owner) :
    (s.transferRecord i r owner).Sane := by
  have fits : Record.Fits { r.addReason .owner with owner := owner } :=
    (Record.fits_addReason (ok.registered.fits hr) .owner).setOwner owner
  have reasons : (r.addReason .owner).reasons ≠ 0 := Reason.bit_or_ne_zero _ _
  set q : Record := { r.addReason .owner with owner := owner } with hq
  have record : (s.transferRecord i r owner).record = Function.update s.record i (some q) := by
    rw [← State.record_setRecord_eq]
    funext j
    unfold State.transferRecord
    cases owner <;> cases r.owner <;> rfl
  have list : ∀ c, ((s.transferRecord i r owner).port c).changeList =
      if c = owner then (s.port c).changeList ++ [i] else (s.port c).changeList.erase i := by
    intro c
    rw [State.transferRecord_eq new, State.port_setPort]
    split
    · next e => simp [e]
    · next e =>
      have : c = r.owner := by revert e new; cases c <;> cases owner <;> cases r.owner <;> simp
      simp [this]
  have posted : (s.transferRecord i r owner).Posted := fun c => by
    rw [list, record]
    split
    · next e =>
      refine (ok.registered.posted c).join ?_ (listed_some.mpr ⟨e.symm, reasons⟩)
      rw [hr, listed_some]
      exact fun h => new (e.symm.trans h.1.symm)
    · next e =>
      refine (ok.registered.posted c).drop ?_
      rw [listed_some]
      exact fun h => e h.1.symm
  have frame : (s.transferRecord i r owner).registry = (s.setRecord i (some q)).registry
      ∧ (s.transferRecord i r owner).poll = s.poll ∧ (s.transferRecord i r owner).adm = s.adm
      ∧ (s.transferRecord i r owner).trunk = s.trunk ∧ (s.transferRecord i r owner).pool = s.pool := by
    unfold State.transferRecord
    cases owner <;> cases r.owner <;> exact ⟨rfl, rfl, rfl, rfl, rfl⟩
  obtain ⟨registry, poll, adm, trunk, pool⟩ := frame
  refine ok.alike (State.alike_update hr record ⟨rfl, Iff.rfl, rfl, rfl⟩) (fun j => ?_)
    (ok.registered.records.update record ((Record.ok_iff q).mpr fits)) posted (by rw [poll]) ?_ (by rw [registry]; rfl)
    (by rw [registry]; rfl) (by rw [registry]; rfl) (funext fun a => by rw [State.lookup, registry]; rfl) adm (by rw [trunk]; exact ⟨rfl, rfl, rfl⟩)
    pool fun c => ?_
  · rw [State.slot, registry]
    exact s.gen_setRecord i j _
  · rw [poll]
    exact ok.registered.queues.cursor
  · rw [State.transferRecord_eq new]
    simp only [State.port_setPort]
    split
    · next e => simp [e]
    · split
      · next e => simp [e]
      · simp

theorem State.Sane.bodyTransfer (ok : s.Sane) : (bodyTransfer ch s).Sane := by
  unfold Machine.bodyTransfer
  refine ok.onChannel0 (ok.withRecord fun i r hr => ?_)
  split
  · exact ok.fail ..
  all_goals
    dsimp only
    exact .ite (fun _ => ok.complete ..) fun hne => (ok.transferRecord hr hne).complete ..

/-! ### Commands that read -/

theorem State.Sane.bodyReadStation (ok : s.Sane) : (bodyReadStation ch s).Sane :=
  ok.withRecord fun _ _ _ => ok.complete ..

theorem State.Sane.bodyReadIdentity (ok : s.Sane) : (bodyReadIdentity ch s).Sane := by
  unfold Machine.bodyReadIdentity
  refine ok.withRecord fun i r hr => ?_
  split
  · exact ok.fail ..
  · next b _ =>
    refine .ite (fun _ => (ok.stageOut ?_ b).complete ..) fun _ => ok.fail ..
    have := (within_iff.mp (ok.registered.fits hr).identity).2
    omega

theorem State.Sane.bodyFindAddress (ok : s.Sane) : (bodyFindAddress ch s).Sane := by
  unfold Machine.bodyFindAddress
  refine .ite (fun _ => ?_) fun _ => ok.fail ..
  split
  · exact ok.complete ..
  · exact ok.fail ..

theorem State.Sane.bodyFindIdentity (ok : s.Sane) : (bodyFindIdentity ch s).Sane := by
  unfold Machine.bodyFindIdentity
  split
  · exact ok.fail ..
  · refine .ite (fun _ => .ite (fun _ => ?_) fun _ => ok.fail ..) fun _ => ok.fail ..
    split
    · exact ok.complete ..
    · exact ok.fail ..

theorem State.Sane.bodyNextStation (ok : s.Sane) : (bodyNextStation ch s).Sane := by
  unfold Machine.bodyNextStation
  refine .ite (fun _ => ?_) fun _ => ok.fail ..
  split
  · exact ok.complete ..
  · exact ok.fail ..

/-! ### Every record's count lowered, or its hold run down -/

/-- Every record goes through one function, and nothing else of the registry changes. -/
theorem State.Sane.mapRecords (ok : s.Sane) {f : Record → Record} (alike : ∀ r : Record, r.Alike (f r))
    (fits : ∀ r : Record, r.Fits → (f r).Fits) (keeps : ∀ r : Record, (f r).owner = r.owner ∧ (f r).reasons = r.reasons)
    (registry : t.registry = { s.registry with
      slots := s.registry.slots.map fun x => { x with record := x.record.map f } })
    (ring : t.poll.ring = s.poll.ring) (cursor : t.poll.cursor = s.poll.cursor) (adm : t.adm = s.adm)
    (trunk : t.trunk.line = s.trunk.line ∧ t.trunk.current = s.trunk.current ∧ t.trunk.hunt = s.trunk.hunt)
    (pool : t.pool = s.pool) (ports : ∀ c, t.port c = s.port c) : t.Sane := by
  have slot : ∀ i, t.slot i = { s.slot i with record := (s.record i).map f } := fun i => by
    rw [State.slot, registry]
    simp [State.slot, State.record]
  have record : ∀ i, t.record i = (s.record i).map f := fun i => by rw [State.record, slot]
  have related : s.Alike t := fun i => by
    rw [record]
    cases s.record i
    · exact .none
    · exact .some (alike _)
  refine ok.alike related (fun i => by rw [slot]) (fun i => ?_) (ok.registered.posted.congr (fun c i => ?_) fun c => by rw [ports])
    ring (by rw [ring, cursor]; exact ok.registered.queues.cursor) (by rw [registry]) (by rw [registry]) (by rw [registry])
    ?_ adm trunk pool fun c => by rw [ports]
  · rw [record]
    cases hr : s.record i with
    | none => rfl
    | some r => exact (Record.ok_iff (f r)).mpr (fits r (ok.registered.fits hr))
  · rw [record]
    cases s.record i with
    | none => exact Iff.rfl
    | some r =>
      obtain ⟨owner, reasons⟩ := keeps r
      rw [Option.map_some, listed_some, listed_some, owner, reasons]
  · funext a
    rw [State.lookup, registry]
    rfl

theorem Record.alike_lowerSkip (r : Record) (d : Nat) : r.Alike (r.lowerSkip d) := by
  unfold Record.lowerSkip
  split <;> exact ⟨rfl, Iff.rfl, rfl, rfl⟩

theorem State.Sane.setDivisor (ok : s.Sane) (d : Nat) : (s.setDivisor d).Sane := by
  unfold State.setDivisor
  refine .ite (fun _ => ok) fun _ => ?_
  refine ok.mapRecords (f := fun r => r.lowerSkip d) (fun r => r.alike_lowerSkip d) (fun r h => h.lowered d) (fun r => ?_)
    rfl rfl rfl rfl ⟨rfl, rfl, rfl⟩ rfl fun c => by cases c <;> rfl
  unfold Record.lowerSkip
  split <;> exact ⟨rfl, rfl⟩

theorem State.Sane.bodySetPolling (ok : s.Sane) : (bodySetPolling ch s).Sane := by
  unfold Machine.bodySetPolling
  exact ok.onChannel0 (.ite (fun _ => ok.complete ..) fun _ =>
    .ite (fun _ => (ok.setDivisor _).complete ..) fun _ => ok.fail ..)

/-- One period of the reference clock (R72). -/
theorem State.Sane.tick (ok : s.Sane) : s.tick.Sane := by
  unfold State.tick
  refine .ite (fun _ => ok) fun _ => ?_
  refine ok.mapRecords (f := fun r => { r with hold := tickHold r.hold }) (fun r => ⟨rfl, Iff.rfl, rfl, rfl⟩) (fun r h => ?_)
    (fun r => ⟨rfl, rfl⟩) rfl rfl rfl rfl ⟨rfl, rfl, rfl⟩ rfl fun c => by cases c <;> rfl
  refine h.setHold (fun n hn => ?_) fun e => by rw [e]; rfl
  obtain ⟨m, hm, e⟩ := Option.map_eq_some_iff.mp hn
  have range := h.hold m hm
  split at e <;> omega

end Sys2Proof.Machine
end

section
/-! The commands on the line, on admission, on buffers and on the Change Lists keep a sound state. -/

namespace Sys2Proof.Machine

variable {s t : State} {i : SlotNo} {r r' : Record} {ch : Channel} {b : BufNo}

/-! ### The line -/

theorem State.Sane.bodyConfigureLine (ok : s.Sane) : (bodyConfigureLine ch s).Sane := by
  unfold Machine.bodyConfigureLine
  refine ok.onChannel0 (.ite (fun _ => ok.complete ..) fun _ => ?_)
  split
  · exact ok.fail ..
  · next c _ =>
    have written : (s.updTrunk fun t => { t with config := c }).Sane := ok.of_view rfl
    exact .ite (fun _ => written.complete ..) fun _ => ok.fail ..

theorem State.Sane.bodyReadLineStatus (ok : s.Sane) : (bodyReadLineStatus ch s).Sane := by
  unfold Machine.bodyReadLineStatus
  dsimp only
  refine .ite (fun _ => ok.fail ..) fun _ => .ite (fun _ => ok.fail ..) fun _ => State.Sane.complete ?_ ..
  exact .ite (fun _ => ok.of_view rfl) fun _ => ok

theorem State.Sane.bodyStartLine (ok : s.Sane) (settings : s.SettingsOk) : (bodyStartLine ch s).Sane := by
  unfold Machine.bodyStartLine
  refine ok.onChannel0 (.ite (fun stopped => State.Sane.complete ?_ ..) fun _ => ok.fail ..)
  have line : s.trunk.line = .off ∨ s.trunk.line = .fault := by
    revert stopped
    cases s.trunk.line <;> simp [LineState.stopped]
  have loose : s.Loose := by
    refine ok.loose ?_ ?_ <;> rcases line with line | line <;> rw [line] <;> decide
  have none : s.trunk.current = none := by
    cases ok.phase with
    | rest _ n => exact n
    | guard l => rcases line with line | line <;> rw [line] at l <;> cases l
    | live _ l => rcases line with line | line <;> simp [line] at l
  have cleared : (s.updTrunk fun t => { t with faultRun := 0, faultDue := false }).Loose :=
    loose.of_eq rfl rfl rfl (fun ch => by cases ch <;> rfl) loose.released
  exact cleared.enterIdle ((State.regular_faultRun s rfl rfl rfl rfl rfl).tame.settings settings) none

theorem State.Sane.stopAbort (ok : s.Sane) : (s.stopAbort ch).Sane := by
  unfold State.stopAbort
  dsimp only
  split
  · exact ok.complete ..
  case h_2 line | h_3 line => exact (ok.loose (by rw [line]; decide) (by rw [line]; decide)).toOff.complete ..
  · next line => exact ((ok.abortExchange (.inl line)).toOff.endDrain _).complete ..
  · next line => exact ((ok.abortExchange (.inr line)).toOff.endDrain _).complete ..
  · next line => exact ((ok.loose (by rw [line]; decide) (by rw [line]; decide)).toOff.endDrain _).complete ..

theorem State.Sane.stopDrain (ok : s.Sane) : (s.stopDrain ch).Sane := by
  unfold State.stopDrain
  dsimp only
  split
  · exact ok.complete ..
  case h_2 line | h_3 line | h_4 line =>
    exact (ok.loose (by rw [line]; decide) (by rw [line]; decide)).toOff.complete ..
  · exact ok.of_view rfl
  · exact ok.of_view rfl

theorem State.Sane.bodyStopLine (ok : s.Sane) : (bodyStopLine ch s).Sane := by
  unfold Machine.bodyStopLine
  split
  · exact ok.stopAbort
  · exact .ite (fun _ => ok.fail ..) fun _ => ok.stopDrain
  · exact ok.fail ..
  · exact ok.fail ..

theorem State.Sane.bodySetHealth (ok : s.Sane) : (bodySetHealth ch s).Sane := by
  unfold Machine.bodySetHealth
  refine ok.onChannel0 (.ite (fun _ => ok.complete ..) fun _ => .ite (fun _ => State.Sane.complete ?_ ..) fun _ => ok.fail ..)
  exact ok.of_view rfl

theorem State.Sane.bodyClearHold (ok : s.Sane) : (bodyClearHold ch s).Sane := by
  unfold Machine.bodyClearHold
  refine ok.withRecord fun i r _ => ?_
  have ended : (if r.hold.isSome then s.endHold i else s).Sane := .ite (fun _ => ok.endHold i) fun _ => ok
  split
  · exact ended.complete ..
  · exact ended.complete ..
  · exact ended.complete ..
  all_goals exact ok.fail ..

/-! ### Admission -/

theorem State.Sane.bodySetAdmission (ok : s.Sane) (settings : s.SettingsOk) : (bodySetAdmission ch s).Sane := by
  unfold Machine.bodySetAdmission
  refine ok.onChannel0 (.ite (fun _ => ok.complete ..) fun _ => .ite (fun h => ?_) fun _ => ok.fail ..)
  unfold State.admissionArgsOk at h
  simp only [Bool.and_eq_true, decide_eq_true_eq] at h
  obtain ⟨⟨⟨⟨⟨h1, h2⟩, h3⟩, h4⟩, h5⟩, h6⟩ := h
  have written := (State.regular_writeAdmission s h1 h2 h3 h4 h5 h6).tame.settings settings
  set w := s.writeAdmission (s.arg ch 0).toNat (s.arg ch 1).toNat (s.arg ch 2).toNat (s.arg ch 3).toNat
    (s.arg ch 4).toNat with hw
  have sane : w.Sane := ok.of_view rfl
  have retried := sane.retryDeferred written
  dsimp only
  refine State.Sane.complete (.ite (fun _ => retried) fun _ => ?_) ..
  exact retried.wake ((State.regular_retryDeferred w).tame.settings written)

theorem State.Sane.setFilter (ok : s.Sane) (n : Fin 8) (f : Filter) : (s.setFilter n f).Sane := ok.of_view rfl

theorem State.Sane.bodyWriteFilter (ok : s.Sane) : (bodyWriteFilter ch s).Sane := by
  unfold Machine.bodyWriteFilter
  refine ok.onChannel0 ?_
  split
  · exact ok.fail ..
  · next n f _ =>
    refine .ite (fun _ => (ok.setFilter n f).complete ..) fun _ => ?_
    split
    · exact ok.fail ..
    · exact .ite (fun _ => (ok.setFilter n _).complete ..) fun _ => ok.fail ..

theorem State.Sane.bodyReadFilter (ok : s.Sane) : (bodyReadFilter ch s).Sane := by
  unfold Machine.bodyReadFilter
  refine ok.onChannel0 ?_
  split
  · split
    · exact ok.fail ..
    · next b _ =>
      dsimp only
      refine .ite (fun _ => ok.complete ..) fun _ => .ite (fun _ => (ok.stageOut ?_ b).complete ..) fun _ => ok.fail ..
      have := List.length_take_le' (s.adm.filters[(⟨(s.arg ch 0).toNat, ‹_›⟩ : Fin 8)].minLength)
        s.adm.filters[(⟨(s.arg ch 0).toNat, ‹_›⟩ : Fin 8)].pattern.toList
      rw [Vector.length_toList] at this
      omega
  · exact ok.fail ..

theorem State.Sane.bodyReadCandidate (ok : s.Sane) (settings : s.SettingsOk) : (bodyReadCandidate ch s).Sane := by
  unfold Machine.bodyReadCandidate
  refine ok.onChannel0 (.ite (fun _ => ?_) fun _ => ok.fail ..)
  split
  · exact ok.fail ..
  · next b _ =>
    refine .ite (fun _ => ?_) fun _ => ok.fail ..
    split
    · exact ok.fail ..
    · next c hc =>
      refine (ok.stageOut ?_ b).complete ..
      obtain ⟨-, -, -, -, -, ⟨-, -, each⟩, -⟩ := settings
      have := (within_iff.mp (each c (List.mem_of_getElem? hc)).2).2
      omega

/-- The address that APPROVE takes is in the range and free (R152). -/
theorem State.approveAddress_ok {address : Nat} {a : Byte} (settings : s.SettingsOk) (ha : address ≤ 254)
    (h : s.approveAddress address = .ok a) : within 1 a.toNat 254 = true ∧ s.lookup a = none := by
  unfold State.approveAddress at h
  split at h
  · split at h
    · next hg =>
      cases h
      exact State.allocateAddress_some settings hg
    · cases h
  · next hz =>
    split at h
    · cases h
    · next hn =>
      cases h
      refine ⟨within_iff.mpr ?_, by simpa using hn⟩
      rw [BitVec.toNat_ofNat]
      omega

theorem State.Sane.approve (ok : s.Sane) (settings : s.SettingsOk) {c : Candidate} (hc : c ∈ s.adm.candidates) (cls : Class)
    (owner : Channel) {address : Nat} (ha : address ≤ 254) : (s.approve ch c cls owner address).Sane := by
  rw [State.approve_eq]
  split
  · exact ok.answer ..
  · next i rest hf =>
    split
    · exact ok.fail ..
    · next a happ =>
      obtain ⟨range, free⟩ := State.approveAddress_ok settings ha happ
      have hid : within 1 c.identity.length 16 = true := by
        obtain ⟨-, -, -, -, -, ⟨-, -, each⟩, -⟩ := settings
        exact (each c hc).2
      have admitted := ok.admitted hf range hid cls owner free
        (ok.registered.naming.apart c.identity (List.mem_map_of_mem hc))
      refine (admitted.wake ?_).answer ..
      exact (State.regular_removeCandidate s c.identity).tame.settings settings

theorem State.Sane.bodyApprove (ok : s.Sane) (settings : s.SettingsOk) : (bodyApprove ch s).Sane := by
  unfold Machine.bodyApprove
  refine ok.onChannel0 ?_
  split
  · exact ok.fail ..
  · refine .ite (fun h => ?_) fun _ => ok.fail ..
    split
    · exact ok.fail ..
    · next c hc =>
      exact ok.approve settings (List.mem_of_find?_eq_some hc) _ _ (of_decide_eq_true (Bool.and_eq_true_iff.mp h).2).2

theorem State.Sane.bodyReject (ok : s.Sane) (settings : s.SettingsOk) : (bodyReject ch s).Sane := by
  unfold Machine.bodyReject
  refine ok.onChannel0 (.ite (fun _ => ?_) fun _ => ok.fail ..)
  split
  · exact ok.fail ..
  · next c _ =>
    have removed := ok.candidates (f := fun a => { a with candidates := a.candidates.filter fun d => d.ticket ≠ c.ticket })
      ((List.filter_sublist).map _)
    exact (removed.wakeIfInvitePending ((State.regular_filterCandidates s _).tame.settings settings)).complete ..

end Sys2Proof.Machine
end

section
/-! The buffer commands, TAKE CHANGE and the resets keep a sound state. -/

namespace Sys2Proof.Machine

variable {s t : State} {i : SlotNo} {r r' : Record} {ch : Channel} {b : BufNo}

/-! ### One buffer moved -/

theorem State.placeOf_moved {x : Buffer} (buffer : ∀ c, t.buffer c = if b = c then x else s.buffer c) :
    t.placeOf = Function.update s.placeOf b x.place := funext fun c => by
  rw [State.placeOf, buffer, Function.update_apply]
  by_cases hc : b = c
  · rw [if_pos hc, if_pos hc.symm]
  · rw [if_neg hc, if_neg (Ne.symm hc)]
    rfl

/-- What changes in the lists of buffers alone. -/
theorem State.Sane.of_stored (ok : s.Sane) (roll : t.roll = s.roll) (stored : t.Stored)
    (line : t.trunk.line = s.trunk.line) (current : t.trunk.current = s.trunk.current)
    (hunt : t.trunk.hunt = s.trunk.hunt) : t.Sane := by
  have registry : t.registry = s.registry := congrArg Prod.fst roll
  exact ⟨ok.registered.of_roll roll, stored, ok.held.congr (State.record_of_registry registry) current,
    ok.phase.congr registry line current, ok.hunt.congr line hunt⟩

/-- A buffer that a channel takes from the free buffer list. -/
theorem State.Sane.bodyAllocate (ok : s.Sane) : (bodyAllocate ch s).Sane := by
  unfold Machine.bodyAllocate
  refine .ite (fun _ => ok.fail ..) fun _ => ?_
  split
  · exact ok.fail ..
  · next b rest hf =>
    refine State.Sane.complete ?_ ..
    set t := ({ s with pool := { s.pool with free := rest } } : State).setPlace b (.held ch) with ht
    have was : s.placeOf b = .free := (ok.stored.free.2 b).mp (by rw [hf]; exact List.mem_cons_self ..)
    have buffer : ∀ c, t.buffer c = if b = c then { s.buffer b with place := .held ch } else s.buffer c := fun c =>
      State.buffer_setBuffer ..
    have place := State.placeOf_moved buffer
    refine ok.of_stored rfl ⟨?_, fun j => ?_, ?_, ?_, fun c => ?_⟩ rfl rfl rfl
    · rw [place]
      exact (hf ▸ ok.stored.free).dropHead (by simp)
    · rw [place]
      exact (ok.stored.queued j).keep (iff_of_false (by simp) (by rw [was]; simp))
    · rw [place]
      exact ok.stored.delivered.keep (iff_of_false (by simp [Place.isDelivered]) (by rw [was]; simp [Place.isDelivered]))
    · rw [place]
      exact ok.stored.reserved.keep (iff_of_false (by simp) (by rw [was]; simp))
    · rw [buffer]
      split
      · exact ok.stored.length b
      · exact ok.stored.length c

/-- A held buffer goes to the free buffer list. -/
theorem State.Sane.bodyRelease (ok : s.Sane) : (bodyRelease ch s).Sane := by
  unfold Machine.bodyRelease
  split
  · exact ok.fail ..
  · next b _ =>
    refine .ite (fun held => ?_) fun _ => ok.fail ..
    have was : s.placeOf b = .held ch := (State.isHeld_iff ..).mp held
    refine State.Sane.complete (ok.of_stored (t := s.freeBuffer b) rfl ?_ rfl rfl rfl) ..
    refine ok.stored.release (fs := [b]) rfl (s.placeOf_freeAll [b]) (fun c => ?_) (List.nodup_singleton b) (fun c hc => ?_)
      (fun j => ⟨(ok.stored.queued j).1, fun c => ?_⟩) (fun c => by cases c <;> rfl) fun c => ?_
    · exact (s.length_freeAll [b] c).trans_le (ok.stored.length c)
    · rw [List.mem_singleton] at hc
      rw [hc, was]
      exact ⟨by simp, rfl⟩
    · refine ⟨fun hc => ⟨hc, fun hb => ?_⟩, fun hc => hc.1⟩
      rw [List.mem_singleton] at hb
      have := ((ok.stored.queued j).2 c).mp hc
      rw [hb, was] at this
      cases this
    · refine ⟨fun hc => ⟨hc, fun hb => ?_⟩, fun hc => hc.1⟩
      rw [List.mem_singleton] at hb
      have res : s.reservedBuffer = some c := hc
      have := (ok.stored.reserved.2 c).mp (by rw [res]; simp)
      rw [hb, was] at this
      cases this

/-- A delivered buffer that its owner's channel takes (R166). -/
theorem State.Sane.bodyTakeMessage (ok : s.Sane) : (bodyTakeMessage ch s).Sane := by
  unfold Machine.bodyTakeMessage
  split
  · exact ok.fail ..
  · next b rest hq =>
    dsimp only
    refine State.Sane.complete ?_ ..
    set t := (s.setPort ch { s.port ch with deliveryQueue := rest }).setPlace b (.held ch) with ht
    have mem : b ∈ s.port0.deliveryQueue ++ s.port1.deliveryQueue := by
      have : b ∈ (s.port ch).deliveryQueue := by rw [hq]; exact List.mem_cons_self ..
      cases ch
      · exact List.mem_append_left _ this
      · exact List.mem_append_right _ this
    have was : (s.placeOf b).isDelivered = true := (ok.stored.delivered.2 b).mp mem
    have ne : ∀ p : Place, p.isDelivered = false → s.placeOf b ≠ p := fun p hp e => by
      rw [e, hp] at was
      cases was
    have buffer : ∀ c, t.buffer c = if b = c then { s.buffer b with place := .held ch } else s.buffer c := fun c => by
      cases ch <;> exact State.buffer_setBuffer ..
    have place := State.placeOf_moved buffer
    have outq : t.outq = s.outq := by cases ch <;> rfl
    have reserved : t.reservedBuffer = s.reservedBuffer := by cases ch <;> rfl
    have queues : t.port0.deliveryQueue ++ t.port1.deliveryQueue =
        (s.port0.deliveryQueue ++ s.port1.deliveryQueue).erase b := by
      cases ch
      · have h0 : s.port0.deliveryQueue = b :: rest := hq
        show rest ++ s.port1.deliveryQueue = _
        rw [h0, List.cons_append, List.erase_cons_head]
      · have h1 : s.port1.deliveryQueue = b :: rest := hq
        have out : b ∉ s.port0.deliveryQueue := fun hm =>
          (List.nodup_append.mp ok.stored.delivered.1).2.2 b hm b (by rw [h1]; exact List.mem_cons_self ..) rfl
        show s.port0.deliveryQueue ++ rest = _
        rw [h1, List.erase_append_right _ out, List.erase_cons_head]
    refine ok.of_stored ?_ ⟨?_, fun j => ?_, ?_, ?_, fun c => ?_⟩ (by cases ch <;> rfl) (by cases ch <;> rfl)
      (by cases ch <;> rfl)
    · have lists : (fun c => (t.port c).changeList) = fun c => (s.port c).changeList := funext fun c => by
        cases ch <;> cases c <;> rfl
      unfold State.roll
      rw [lists]
      cases ch <;> rfl
    · rw [place, show t.pool.free = s.pool.free by cases ch <;> rfl]
      exact ok.stored.free.keep (iff_of_false (by simp) (ne _ rfl))
    · rw [place, outq]
      exact (ok.stored.queued j).keep (iff_of_false (by simp) (ne _ rfl))
    · rw [place, queues]
      exact ok.stored.delivered.drop (by simp [Place.isDelivered])
    · rw [place, reserved]
      exact ok.stored.reserved.keep (iff_of_false (by simp) (ne _ rfl))
    · rw [buffer]
      split
      · exact ok.stored.length b
      · exact ok.stored.length c

theorem State.Sane.bodySetReserve (ok : s.Sane) : (bodySetReserve ch s).Sane := by
  unfold Machine.bodySetReserve
  refine ok.onChannel0 (.ite (fun _ => ok.complete ..) fun _ => .ite (fun _ => ?_) fun _ => ok.fail ..)
  exact State.Sane.complete (s := { s with pool := { s.pool with reserveFloor := (s.arg ch 0).toNat } }) (ok.of_view rfl) ..

/-- A held buffer joins the tail of a member's outbound queue (R164). -/
theorem State.Sane.enqueue (ok : s.Sane) (hr : s.record i = some r) (hm : r.state.isMember = true) (hl : r.outq.length < 4)
    (held : s.placeOf b = .held ch) {n : Nat} (hn : n ≤ 120) :
    ((s.setBuffer b { length := n, place := .queued i }).setRecord i (some (r.enqueue b))).Sane := by
  set u := s.setBuffer b { length := n, place := .queued i } with hu
  have record : (u.setRecord i (some (r.enqueue b))).record = Function.update s.record i (some (r.enqueue b)) :=
    u.record_setRecord_eq i _
  have registered : (u.setRecord i (some (r.enqueue b))).Registered := by
    have base : u.Registered := ok.registered.of_roll rfl
    rw [State.setRecord_eq_touch (r := r) (r' := r.enqueue b) i rfl]
    exact base.touch (r' := r.enqueue b) hr ⟨rfl, id⟩ ((Record.ok_iff _).mpr ((ok.registered.fits hr).enqueued hm b hl)) rfl []
  have place : u.placeOf = Function.update s.placeOf b (.queued i) :=
    State.placeOf_moved fun c => State.buffer_setBuffer ..
  have outq : (u.setRecord i (some (r.enqueue b))).outq = Function.update s.outq i (s.outq i ++ [b]) := by
    rw [State.outq_update record, State.outq_some hr]
    rfl
  have keeps : s.Keeps (u.setRecord i (some (r.enqueue b))) := by
    refine ⟨fun j _ _ => ?_, fun j q hq _ => ?_, fun j hj => hj⟩
    · rw [State.handle, u.gen_setRecord i j]
      rfl
    · rw [record]
      by_cases hji : j = i
      · subst hji
        rw [hr] at hq
        cases hq
        rw [Function.update_self]
        refine ⟨_, rfl, id, id, fun c _ hc => ?_⟩
        show (r.outq ++ [b]).head? = some c
        rw [List.head?_append, hc]
        rfl
      · rw [Function.update_of_ne hji]
        exact ⟨q, hq, id, id, fun _ _ => id⟩
  refine ⟨registered, ⟨?_, fun j => ?_, ?_, ?_, fun c => ?_⟩, fun j q hq hs => ?_,
    ok.phase.keeps keeps ok.registered.queues rfl rfl, ok.hunt.congr rfl rfl⟩
  · show Tracks u.placeOf _ s.pool.free
    rw [place]
    exact ok.stored.free.keep (iff_of_false (by simp) (by rw [held]; simp))
  · show Tracks u.placeOf _ _
    rw [place, outq]
    by_cases hji : j = i
    · rw [hji, Function.update_self]
      exact (ok.stored.queued i).join (by rw [held]; simp) rfl
    · rw [Function.update_of_ne hji]
      exact (ok.stored.queued j).keep (iff_of_false (by simpa using Ne.symm hji) (by rw [held]; simp))
  · show Tracks u.placeOf _ (s.port0.deliveryQueue ++ s.port1.deliveryQueue)
    rw [place]
    exact ok.stored.delivered.keep (iff_of_false (by simp [Place.isDelivered]) (by rw [held]; simp [Place.isDelivered]))
  · show Tracks u.placeOf _ s.reservedBuffer.toList
    rw [place]
    exact ok.stored.reserved.keep (iff_of_false (by simp) (by rw [held]; simp))
  · show (u.buffer c).length ≤ 120
    rw [hu, State.buffer_setBuffer]
    split
    · exact hn
    · exact ok.stored.length c
  · rw [record] at hq
    obtain ⟨-, hq⟩ := Function.update_some_of_ne hq fun e => by
      cases e
      exact RecState.isMember_ne_retiring hm hs
    exact ok.held j q hq hs

theorem State.Sane.bodySend (ok : s.Sane) : (bodySend ch s).Sane := by
  unfold Machine.bodySend
  refine ok.withRecord_args fun args i r hr => ?_
  have short : (s.arg ch 2).toNat ≤ 120 := (of_decide_eq_true (Bool.and_eq_true_iff.mp args).2).2
  split
  · exact ok.fail ..
  · next b _ =>
    refine .ite (fun _ => ok.fail ..) fun hheld => .ite (fun _ => ok.fail ..) fun hm => .ite (fun _ => ok.fail ..) fun hl =>
      (ok.enqueue hr (by simpa using hm) (by omega) ((State.isHeld_iff ..).mp (by simpa using hheld)) short).complete ..

/-! ### TAKE CHANGE -/

/-- The entry at the head of a channel's Change List is a record of the channel with reasons (R178). -/
theorem State.Posted.head {rest : List SlotNo} (ok : s.Posted) (hl : (s.port ch).changeList = i :: rest) :
    ∃ r, s.record i = some r ∧ r.owner = ch ∧ r.reasons ≠ 0 :=
  ((ok ch).2 i).mp (by rw [hl]; exact List.mem_cons_self ..)

/-- An entry taken from a record that stays: the reasons and counts are cleared (R180). -/
theorem State.Sane.clearEntry {rest : List SlotNo} (ok : s.Sane) (hl : (s.port ch).changeList = i :: rest)
    (hr : s.record i = some r) (hs : r.state ≠ .retired) :
    ((s.setPort ch { s.port ch with changeList := rest }).setRecord i
      (some { r with reasons := 0, delivered := 0, undelivered := 0 })).Sane := by
  obtain ⟨q, hq, owner, -⟩ := ok.registered.posted.head hl
  rw [hr] at hq
  cases hq
  set q : Record := { r with reasons := 0, delivered := 0, undelivered := 0 } with hq
  set u := s.setPort ch { s.port ch with changeList := rest } with hu
  have record : (u.setRecord i (some q)).record = Function.update s.record i (some q) := by
    rw [State.record_setRecord_eq]
    cases ch <;> rfl
  have unlisted : ∀ c, ¬ Listed c (some q) := fun c h => (listed_some.mp h).2 rfl
  have posted : (u.setRecord i (some q)).Posted := fun c => by
    have port : (u.setRecord i (some q)).port c = u.port c := by cases c <;> rfl
    rw [record, port, hu, State.port_setPort]
    split
    · next e =>
      subst e
      have := ok.registered.posted c
      rw [hl] at this
      exact this.dropHead (unlisted c)
    · next e =>
      refine (ok.registered.posted c).keep (iff_of_false (unlisted c) ?_)
      rw [hr, listed_some]
      exact fun h => e (h.1.symm.trans owner)
  refine ok.alike (State.alike_update hr record ⟨rfl, Iff.rfl, rfl, rfl⟩) (fun j => ?_)
    (ok.registered.records.update record ((Record.ok_iff q).mpr ((ok.registered.fits hr).cleared hs))) posted ?_ ?_ ?_ ?_ ?_
    ?_ ?_ ?_ ?_ fun c => ?_
  · rw [u.gen_setRecord i j]
    cases ch <;> rfl
  · cases ch <;> rfl
  · cases ch <;> exact ok.registered.queues.cursor
  · cases ch <;> rfl
  · cases ch <;> rfl
  · cases ch <;> rfl
  · cases ch <;> rfl
  · cases ch <;> rfl
  · cases ch <;> exact ⟨rfl, rfl, rfl⟩
  · cases ch <;> rfl
  · cases ch <;> cases c <;> rfl

/-- An entry taken of a RETIRED record: the slot is freed (R24, R181). -/
theorem State.Sane.freeSlot {rest : List SlotNo} (ok : s.Sane) (hl : (s.port ch).changeList = i :: rest)
    (hr : s.record i = some r) (hs : r.state = .retired) :
    ((s.setPort ch { s.port ch with changeList := rest }).freeSlot i).Sane := by
  obtain ⟨q, hq, owner, -⟩ := ok.registered.posted.head hl
  rw [hr] at hq
  cases hq
  set u := (s.setPort ch { s.port ch with changeList := rest }).freeSlot i with hu
  have record : u.record = Function.update s.record i none := by
    rw [← State.record_setRecord_eq]
    cases ch <;> rfl
  have lists : ∀ c, (u.port c).changeList = if c = r.owner then (s.port c).changeList.erase i else (s.port c).changeList :=
    fun c => by
      have : (u.port c).changeList = if ch = c then rest else (s.port c).changeList := by
        cases ch <;> cases c <;> rfl
      rw [this, owner]
      by_cases e : ch = c
      · rw [if_pos e, if_pos e.symm, ← e, hl, List.erase_cons_head]
      · rw [if_neg e, if_neg (Ne.symm e)]
  have registered : u.Registered := by
    refine ok.registered.freeSlot hr hs record ?_ ?_ ?_ ?_ ?_ ?_ lists <;> cases ch <;> rfl
  have gens : ∀ j, u.handle j = s.handle j := fun j => by
    have : (u.slot j).gen = (s.slot j).gen := (show (u.slot j).gen = ((s.setRecord i none).slot j).gen by cases ch <;> rfl).trans
      (s.gen_setRecord i j none)
    rw [State.handle, this]
    rfl
  have outq : s.outq i = [] := by
    rw [State.outq_some hr]
    have fields := (ok.registered.fits hr).fields
    unfold Record.fieldsOk at fields
    simp only [hs, Bool.and_eq_true, List.isEmpty_iff] at fields
    exact fields.1.2
  refine ok.replace registered record (fun j _ => gens j) (fun _ _ => gens i) outq (fun r' e => by cases e)
    (ok.not_holds fun q hq => ?_) ?_ ?_ ?_ fun c => ?_
  · rw [hr] at hq
    cases hq
    exact hs
  · cases ch <;> rfl
  · cases ch <;> rfl
  · cases ch <;> rfl
  · cases ch <;> cases c <;> rfl

theorem State.Sane.bodyTakeChange (ok : s.Sane) (settings : s.SettingsOk) : (bodyTakeChange ch s).Sane := by
  unfold Machine.bodyTakeChange
  split
  · exact ok.fail ..
  · next i rest hl =>
    obtain ⟨r, hr, -⟩ := ok.registered.posted.head hl
    have hr' : (s.setPort ch { s.port ch with changeList := rest }).record i = some r := by
      rw [State.setPort_record]
      exact hr
    unfold State.takeEntry
    dsimp only
    rw [hr']
    dsimp only
    split
    · next hs =>
      have freed := ok.freeSlot hl hr hs
      have taken : (s.setPort ch { s.port ch with changeList := rest }).essence = s.essence := State.essence_setPort _ _ _ rfl
      have tame : s.Tame ((s.setPort ch { s.port ch with changeList := rest }).freeSlot i) :=
        (State.Regular.of_essence taken).tame.trans ⟨id, id⟩
      have retried := freed.retryDeferred (tame.settings settings)
      refine State.Sane.complete (.ite (fun _ => retried) fun _ => ?_) ..
      exact retried.wake ((State.regular_retryDeferred _).tame.settings (tame.settings settings))
    · next hs => exact (ok.clearEntry hl hr hs).complete ..

/-! ### Resets -/

theorem State.sane_reset : State.reset.Sane := resetIsSound.1.sane

/-- A registry reset leaves the records, the collections, the exchange and the buffers as a pin reset does (R196). -/
theorem State.sane_resetBlocks (lengths : ∀ b, (s.buffer b).length ≤ 120) : s.resetBlocks.Sane := by
  have fresh := State.sane_reset
  have none : ∀ i, s.resetBlocks.record i = none := fun i => by
    simp [State.resetBlocks, State.record, State.slot]
  have record : s.resetBlocks.record = State.reset.record := funext fun i => by
    rw [none]
    simp [State.reset, State.record, State.slot]
  have standing := State.standing_of_record record
  have buffer : ∀ b, s.resetBlocks.buffer b = { s.buffer b with place := .free } := fun b => by
    simp [State.resetBlocks, State.buffer]
  refine ⟨⟨fun i => by rw [none]; rfl, fresh.registered.queues.congr standing rfl (Nat.le_refl _) rfl rfl rfl,
    fresh.registered.naming.congr (State.counted_of_standing standing) rfl (List.Sublist.refl _),
    fresh.registered.posted.congr (fun c i => by rw [record]) fun c => by cases c <;> rfl⟩,
    fresh.stored.of_places (State.outq_of_record record) rfl (funext fun b => ?_) (fun b => ?_) rfl
      fun c => by cases c <;> rfl, fun i r hr => ?_, .rest (.inl rfl) rfl, fun _ => rfl⟩
  · rw [State.placeOf, buffer]
    simp [State.reset, State.placeOf, State.buffer]
  · rw [buffer]
    exact lengths b
  · rw [none] at hr
    cases hr

theorem State.Sane.bodyResetRegistry (ok : s.Sane) : (bodyResetRegistry ch s).Sane := by
  have reset : s.dropReception.resetBlocks.Sane := State.sane_resetBlocks ok.dropReception.stored.length
  unfold Machine.bodyResetRegistry
  refine ok.onChannel0 (State.Sane.complete ?_ ..)
  unfold State.discardOther
  split
  · exact reset.complete ..
  · exact reset.complete ..
  · exact reset
  · exact reset

end Sys2Proof.Machine
end

section
/-! A step keeps a sound state's records, collections, exchange and buffers (O57). -/

namespace Sys2Proof.Machine

variable {s t : State} {ch : Channel} {x : Exchange}

/-! ### Host commands -/

theorem State.Sane.writeCommand (ok : s.Sane) (ch : Channel) (code opts : Byte) : (s.writeCommand ch code opts).Sane := by
  unfold State.writeCommand
  dsimp only
  split <;> exact ok.setPort ch rfl rfl

theorem State.Sane.issued (ok : s.Sane) (ch : Channel) (code opts : Byte) : (s.issued ch code opts).Sane :=
  .ite (fun _ => ok) fun _ => ok.writeCommand ..

theorem State.Sane.taken (ok : s.Sane) (ch : Channel) : (s.taken ch).Sane := by
  have executing : (s.setPort ch { s.port ch with state := .executing }).Sane := ok.setPort ch rfl rfl
  exact executing.of_view rfl

theorem sane_command {code opts : Byte} {body : Channel → State → State}
    (hb : ∀ u : State, u.Sane → u.SettingsOk → (body ch u).Sane) (ok : s.Sane) (settings : s.SettingsOk)
    (h : command code body ch opts s = .next t) : t.Sane := by
  rcases command_cases h with rfl | ⟨-, rfl⟩ | ⟨-, -, rfl⟩
  · exact ok
  · exact ok.issued ..
  · exact hb _ ((ok.issued ..).taken ch)
      ((State.Regular.of_essence (State.essence_atTake s ch code opts)).tame.settings settings)

theorem sane_unlessReset {f : State → State} (ok : s.Sane) (hf : (f s).Sane) (h : unlessReset f s = .next t) : t.Sane := by
  rcases unlessReset_cases h with rfl | ⟨-, rfl⟩
  · exact ok
  · exact hf

theorem sane_badCommand {code opts : Byte} (ok : s.Sane) (h : execBadCommand ch opts code s = .next t) : t.Sane := by
  refine sane_unlessReset ok ?_ h
  exact .ite (fun _ => ((ok.issued ..).taken ch).fail ..) fun _ => ok.issued ..

/-! ### The words of the bus -/

theorem State.Sane.writeCause (ok : s.Sane) (ch : Channel) (v : Word) : (s.writeCause ch v).Sane := by
  unfold State.writeCause
  dsimp only
  have cleared := ok.setPort ch (p := { s.port ch with
    done := (s.port ch).done && !v.getLsbD 2
    window := (s.port ch).window && !v.getLsbD 3 }) rfl rfl
  cases ch
  · exact cleared.of_view rfl
  · exact cleared

theorem State.Sane.writeEnable (ok : s.Sane) (ch : Channel) (v : Word) : (s.writeEnable ch v).Sane := ok.setPort ch rfl rfl

theorem State.Sane.writeSelect (ok : s.Sane) (ch : Channel) (v : Word) : (s.writeSelect ch v).Sane := ok.setPort ch rfl rfl

theorem State.Sane.readWindow (ok : s.Sane) (ch : Channel) : (s.readWindow ch).Sane := by
  have read : ∀ v, (s.setReadData ch v).Sane := fun v => ok.setPort ch rfl rfl
  exact .ite (fun _ => (read _).setPort ch rfl rfl) fun _ => (read _).setPort ch rfl rfl

theorem State.Sane.writeWindow (ok : s.Sane) (ch : Channel) (v : Word) : (s.writeWindow ch v).Sane := by
  have written : ∀ mem, State.Sane { s with pool := { s.pool with mem := mem } } := fun mem => ok.of_view rfl
  exact .ite (fun _ => (written _).setPort ch rfl rfl) fun _ => ok.setPort ch rfl rfl

theorem State.Sane.writeArg (ok : s.Sane) (ch : Channel) (n : Fin 6) (v : Word) : (s.writeArg ch n v).Sane := by
  unfold State.writeArg
  dsimp only
  split
  · exact ok.setPort ch rfl rfl
  · exact ok.setPort ch rfl rfl
  · exact ok
  · exact ok

theorem State.Sane.busWrite (ok : s.Sane) (addr : BitVec 5) (v : Word) : (s.busWrite addr v).Sane := by
  unfold State.busWrite
  dsimp only
  split
  · exact ok.writeCommand ..
  case h_8 => exact ok.writeCause ..
  case h_9 => exact ok.writeEnable ..
  case h_10 => exact ok.writeSelect ..
  case h_11 => exact ok.writeWindow ..
  case h_12 => exact ok
  all_goals exact ok.writeArg ..

theorem sane_windowDataRead (ok : s.Sane) (h : execWindowDataRead ch s = .next t) : t.Sane := by
  unfold execWindowDataRead at h
  split at h <;> cases h
  · exact ok.setPort ch rfl rfl
  · exact ok.readWindow ch

/-! ### The events of the line -/

theorem State.inPhase_cases {line : LineState} {kinds : List ExchangeKind} (h : s.inPhase line kinds = true) :
    ∃ x, s.trunk.current = some x ∧ s.trunk.line = line ∧ x.kind ∈ kinds := by
  cases hx : s.trunk.current with
  | none => simp [State.inPhase, State.exchangeKind, hx] at h
  | some x =>
    rw [State.inPhase_eq hx, Bool.and_eq_true, decide_eq_true_eq, decide_eq_true_eq] at h
    exact ⟨x, rfl, h⟩

/-- A frame of POLL, DATA, ADMIT or INVITE has been sent, and its window opens (R63). -/
theorem State.Sane.openWindow (ok : s.Sane) (h : s.inPhase .sending [.poll, .data, .admitExchange, .invite] = true) :
    s.openWindow.Sane := by
  obtain ⟨x, hx, line, hk⟩ := State.inPhase_cases h
  have target := ok.live hx (.inl line)
  have hunt := ok.hunt (.inr (.inl line))
  unfold State.openWindow State.exchangeKind
  rw [hx]
  exact ⟨ok.registered.of_roll rfl, ok.stored.of_store rfl, ok.held.congr rfl rfl,
    .live x (.inr ⟨rfl, fun e => by simp [e] at hk⟩) hx (target.of_registry rfl), fun _ => hunt⟩

/-- In a reply window the exchange has a target to which it sent no DISMISS. -/
theorem State.Sane.replying (ok : s.Sane) (h : s.inPhase .awaiting replyKinds = true) :
    ∃ x h, s.trunk.current = some x ∧ x.target = some h ∧ x.kind ≠ .dismiss := by
  obtain ⟨x, hx, line, hk⟩ := State.inPhase_cases h
  obtain ⟨h, ht⟩ := (ok.live hx (.inr line)).some fun e => by simp [e, replyKinds] at hk
  exact ⟨x, h, hx, ht, fun e => by simp [e, replyKinds] at hk⟩

theorem State.Sane.joining (ok : s.Sane) (h : s.inPhase .awaiting [.invite] = true) :
    ∃ x, s.trunk.current = some x ∧ s.Target x ∧ x.kind = .invite := by
  obtain ⟨x, hx, line, hk⟩ := State.inPhase_cases h
  exact ⟨x, hx, ok.live hx (.inr line), by simpa using hk⟩

theorem State.Sane.replyEnds_inPhase (ok : s.Sane) (settings : s.SettingsOk) (h : s.inPhase .awaiting replyKinds = true)
    (bytes : List Byte) (lost : Bool) : (s.replyEnds bytes lost).Sane := by
  obtain ⟨x, g, hx, ht, hk⟩ := ok.replying h
  exact ok.replyEnds settings hx ht hk bytes lost

theorem State.Sane.joinEnds_inPhase (ok : s.Sane) (settings : s.SettingsOk) (h : s.inPhase .awaiting [.invite] = true)
    (bytes : List Byte) (lost : Bool) : (s.joinEnds bytes lost).Sane := by
  obtain ⟨x, hx, target, hk⟩ := ok.joining h
  exact ok.joinEnds settings hx target hk bytes lost

/-- The receiver's hunt goes on in IDLE, GUARD and FAULT alone (R67). -/
theorem State.Sane.hunts (ok : s.Sane)
    (line : s.trunk.line = .idle ∨ s.trunk.line = .guard ∨ s.trunk.line = .fault) (roll : t.roll = s.roll)
    (store : t.store = s.store) (current : t.trunk.current = s.trunk.current) (same : t.trunk.line = s.trunk.line) :
    t.Sane := by
  refine ⟨ok.registered.of_roll roll, ok.stored.of_store store, ok.held.congr ?_ current,
    ok.phase.congr (congrArg Prod.fst roll) same current, fun h => ?_⟩
  · exact State.record_of_registry (congrArg Prod.fst roll)
  · rw [same] at h
    rcases line with line | line | line <;> simp [line] at h

theorem State.Sane.dropStray (ok : s.Sane) (line : s.trunk.line = .idle ∨ s.trunk.line = .guard ∨ s.trunk.line = .fault) :
    s.dropStray.Sane :=
  .ite (fun _ => ok.hunts line rfl rfl rfl rfl) fun _ => ok

theorem sane_clockLoss {bytes : List Byte} (ok : s.Sane) (settings : s.SettingsOk)
    (h : execClockLoss bytes s = .next t) : t.Sane := by
  refine sane_unlessReset ok (.ite (fun _ => ?_) fun _ => ok) h
  split
  · next line => exact ok.cutShort settings line
  · exact .ite (fun _ => .ite (fun hp => ok.replyEnds_inPhase settings hp bytes true) fun _ =>
      .ite (fun hp => ok.joinEnds_inPhase settings hp bytes true) fun _ => ok) fun _ => ok
  · next line => exact ok.dropStray (.inl line)
  · next line => exact ok.dropStray (.inr (.inl line))
  · next line => exact ok.dropStray (.inr (.inr line))
  · exact ok

theorem sane_strayFrame (ok : s.Sane) (h : execStrayFrame s = .next t) : t.Sane := by
  have heard : ∀ bits, (s.trunk.line = .idle ∨ s.trunk.line = .guard ∨ s.trunk.line = .fault) →
      ((s.updTrunk fun t => { t with lineIn := t.lineIn.tail }).hearBits bits).Sane := fun bits line => by
    obtain ⟨hunt, n, e⟩ := State.hearBits_eq (s.updTrunk fun t => { t with lineIn := t.lineIn.tail }) bits
    rw [e]
    exact ok.hunts line rfl rfl rfl rfl
  have passed : (s.trunk.line = .idle ∨ s.trunk.line = .guard ∨ s.trunk.line = .fault) → s.passStray.Sane := fun line => by
    obtain ⟨hunt, n, e⟩ := s.passStray_eq
    rw [e]
    exact ok.hunts line rfl rfl rfl rfl
  refine sane_unlessReset ok ?_ h
  dsimp only
  split
  · next line _ => exact heard _ (.inl line)
  · next line _ => exact heard _ (.inr (.inl line))
  · next line _ => exact heard _ (.inr (.inr line))
  · next line _ => exact passed (.inl line)
  · next line _ => exact passed (.inr (.inl line))
  · next line _ => exact passed (.inr (.inr line))
  all_goals exact ok.of_view rfl

theorem sane_holdExpiry {i : SlotNo} (ok : s.Sane) (h : execHoldExpiry i s = .next t) : t.Sane := by
  refine sane_unlessReset ok ?_ h
  split
  · exact .ite (fun _ => ok.endHold i) fun _ => ok
  · exact ok

theorem sane_idleExpiry (ok : s.Sane) (settings : s.SettingsOk) (h : execIdleExpiry s = .next t) : t.Sane := by
  have ended : (s.updPoll fun p => { p with idle := none }).Sane := ok.of_view rfl
  exact sane_unlessReset ok (.ite (fun _ => ended.wake settings) fun _ => ok) h

theorem sane_dismissSent (ok : s.Sane) (h : execDismissSent s = .next t) : t.Sane := by
  refine sane_unlessReset ok (.ite (fun hp => ?_) fun _ => ok) h
  obtain ⟨x, hx, line, hk⟩ := State.inPhase_cases hp
  exact ok.dismissOutcome hx (ok.live hx (.inl line)) (by simpa using hk)

theorem sane_replyTimeout (ok : s.Sane) (settings : s.SettingsOk) (h : execReplyTimeout s = .next t) : t.Sane := by
  refine sane_unlessReset ok (.ite (fun hp => ?_) fun _ => ok) h
  obtain ⟨x, g, hx, ht, hk⟩ := ok.replying (Bool.and_eq_true_iff.mp hp).1
  exact ok.missByTimeout settings hx ht hk

theorem sane_joinWindowExpiry (ok : s.Sane) (settings : s.SettingsOk) (h : execJoinWindowExpiry s = .next t) : t.Sane := by
  refine sane_unlessReset ok (.ite (fun hp => .ite (fun _ => ?_) fun _ => ?_) fun _ => ok) h
  · exact ok.of_view rfl
  · obtain ⟨x, hx, target, hk⟩ := ok.joining hp
    exact ok.endInvitation settings hx target hk fun _ e => nomatch e

theorem sane_pinReset {level : Bool} (ok : s.Sane) (h : execPinReset level s = .next t) : t.Sane := by
  cases level
  · cases h
    exact ok.of_view rfl
  · exact (resetIsSound.2 s t h).sane

/-- Every row of the table keeps a sound state's parts. -/
theorem sane_exec {c : Instr} (ok : s.Sane) (settings : s.SettingsOk) (h : exec c s = .next t) : t.Sane := by
  cases c
  case enrol => exact sane_command (fun _ => State.Sane.bodyEnrol) ok settings h
  case retire => exact sane_command (fun _ => State.Sane.bodyRetire) ok settings h
  case suspend => exact sane_command (fun _ a _ => a.bodySuspend) ok settings h
  case resume => exact sane_command (fun _ a _ => a.bodyResume) ok settings h
  case setClass => exact sane_command (fun _ => State.Sane.bodySetClass) ok settings h
  case transfer => exact sane_command (fun _ a _ => a.bodyTransfer) ok settings h
  case readStation => exact sane_command (fun _ a _ => a.bodyReadStation) ok settings h
  case readIdentity => exact sane_command (fun _ a _ => a.bodyReadIdentity) ok settings h
  case findAddress => exact sane_command (fun _ a _ => a.bodyFindAddress) ok settings h
  case findIdentity => exact sane_command (fun _ a _ => a.bodyFindIdentity) ok settings h
  case nextStation => exact sane_command (fun _ a _ => a.bodyNextStation) ok settings h
  case setPolling => exact sane_command (fun _ a _ => a.bodySetPolling) ok settings h
  case configureLine => exact sane_command (fun _ a _ => a.bodyConfigureLine) ok settings h
  case readLineStatus => exact sane_command (fun _ a _ => a.bodyReadLineStatus) ok settings h
  case startLine => exact sane_command (fun _ => State.Sane.bodyStartLine) ok settings h
  case stopLine => exact sane_command (fun _ a _ => a.bodyStopLine) ok settings h
  case setHealth => exact sane_command (fun _ a _ => a.bodySetHealth) ok settings h
  case clearHold => exact sane_command (fun _ a _ => a.bodyClearHold) ok settings h
  case setAdmission => exact sane_command (fun _ => State.Sane.bodySetAdmission) ok settings h
  case writeFilter => exact sane_command (fun _ a _ => a.bodyWriteFilter) ok settings h
  case readFilter => exact sane_command (fun _ a _ => a.bodyReadFilter) ok settings h
  case readCandidate => exact sane_command (fun _ => State.Sane.bodyReadCandidate) ok settings h
  case approve => exact sane_command (fun _ => State.Sane.bodyApprove) ok settings h
  case reject => exact sane_command (fun _ => State.Sane.bodyReject) ok settings h
  case allocate => exact sane_command (fun _ a _ => a.bodyAllocate) ok settings h
  case release => exact sane_command (fun _ a _ => a.bodyRelease) ok settings h
  case send => exact sane_command (fun _ a _ => a.bodySend) ok settings h
  case takeMessage => exact sane_command (fun _ a _ => a.bodyTakeMessage) ok settings h
  case setReserve => exact sane_command (fun _ a _ => a.bodySetReserve) ok settings h
  case takeChange => exact sane_command (fun _ => State.Sane.bodyTakeChange) ok settings h
  case resetRegistry => exact sane_command (fun _ a _ => a.bodyResetRegistry) ok settings h
  case badCommand => exact sane_badCommand ok h
  case interruptCauseWrite ch v => exact sane_unlessReset (f := fun s => s.writeCause ch v) ok (ok.writeCause ch v) h
  case interruptEnableWrite ch v => exact sane_unlessReset (f := fun s => s.writeEnable ch v) ok (ok.writeEnable ch v) h
  case windowSelectWrite ch v => exact sane_unlessReset (f := fun s => s.writeSelect ch v) ok (ok.writeSelect ch v) h
  case windowDataRead => exact sane_windowDataRead ok h
  case windowDataWrite ch v => exact sane_unlessReset (f := fun s => s.writeWindow ch v) ok (ok.writeWindow ch v) h
  case registerWrite addr v => exact sane_unlessReset (f := fun s => s.busWrite addr v) ok (ok.busWrite addr v) h
  case pinReset => exact sane_pinReset ok h
  case frameSent => exact sane_unlessReset ok (.ite (fun hp => ok.openWindow hp) fun _ => ok) h
  case dismissSent => exact sane_dismissSent ok h
  case replyReceived bytes =>
    refine sane_unlessReset ok (.ite (fun hp => ?_) fun _ => ok) h
    exact ok.replyEnds_inPhase settings (Bool.and_eq_true_iff.mp hp).1 bytes false
  case replyTimeout => exact sane_replyTimeout ok settings h
  case joinFrame bytes =>
    refine sane_unlessReset ok (.ite (fun hp => ?_) fun _ => ok) h
    exact ok.joinEnds_inPhase settings (Bool.and_eq_true_iff.mp hp).1 bytes false
  case joinWindowExpiry => exact sane_joinWindowExpiry ok settings h
  case clockLoss => exact sane_clockLoss ok settings h
  case guardExpiry => exact sane_unlessReset ok (.ite (fun line => ok.guardRunsOut settings line) fun _ => ok) h
  case strayFrame => exact sane_strayFrame ok h
  case holdExpiry => exact sane_holdExpiry ok h
  case idleExpiry => exact sane_idleExpiry ok settings h
  case replyFirstSpaceBit =>
    refine sane_unlessReset ok (.ite (fun _ => .ite (fun _ => ?_) fun _ => .ite (fun _ => ?_) fun _ => ok) fun _ => ok) h
    · exact ok.of_view rfl
    · exact ok.of_view rfl

theorem State.Sane.step (ok : s.Sane) (settings : s.SettingsOk) (h : step s = .next t) : t.Sane := by
  rcases step_cases h with ⟨-, rfl⟩ | ⟨c, rest, -, h⟩
  · exact ok.tick
  · have queued : State.Sane { s with pending := rest } := ok.of_view rfl
    exact sane_exec queued settings h

/-- Settles O57: the parts of a sound state are kept together, and give back the three. -/
theorem stepKeepsRegistry : Obligations.StepKeepsRegistry := by
  unfold Obligations.StepKeepsRegistry
  intro s t sound h
  obtain ⟨-, settings, -⟩ := id sound
  obtain ⟨records, registry, exchange, -⟩ := (sound.sane.step settings h).parts
  exact ⟨records, registry, exchange⟩

end Sys2Proof.Machine
end

section
/-! What the mark of a drain depends on, and the operations that leave it alone. -/

namespace Sys2Proof.Machine

/-- What the mark of a drain is read from: the drain, the line state and the states of the two channels. -/
def State.posture (s : State) : Option Drain × LineState × ChanState × ChanState :=
  (s.trunk.drain, s.trunk.line, s.port0.state, s.port1.state)

section
variable (s : State) (i : SlotNo) (b : BufNo) (ch : Channel) (x : Exchange)

@[simp] theorem State.posture_setRecord (r : Option Record) : (s.setRecord i r).posture = s.posture := rfl

@[simp] theorem State.posture_freeBuffer : (s.freeBuffer b).posture = s.posture := rfl

@[simp] theorem State.posture_removeAdmit : (s.removeAdmit i).posture = s.posture := rfl

@[simp] theorem State.posture_releaseTarget : s.releaseTarget.posture = s.posture := rfl

@[simp] theorem State.posture_updCounters (f : Counters → Counters) : (s.updCounters f).posture = s.posture := rfl

theorem State.posture_setPort {p : Port} (h : p.state = (s.port ch).state) : (s.setPort ch p).posture = s.posture := by
  cases ch
  · exact congrArg (fun st => (s.trunk.drain, s.trunk.line, st, s.port1.state)) h
  · exact congrArg (fun st => (s.trunk.drain, s.trunk.line, s.port0.state, st)) h

@[simp] theorem State.posture_updRecord (f : Record → Record) : (s.updRecord i f).posture = s.posture := by
  unfold State.updRecord
  split <;> rfl

@[simp] theorem State.posture_joinChangeList : (s.joinChangeList ch i).posture = s.posture :=
  s.posture_setPort ch rfl

@[simp] theorem State.posture_post (why : Reason) : (s.post i why).posture = s.posture := by
  unfold State.post
  split
  · rfl
  · dsimp only
    split
    · rfl
    · split <;> simp

@[simp] theorem State.posture_freeUndelivered (bs : List BufNo) : (s.freeUndelivered i bs).posture = s.posture := by
  induction bs generalizing s with
  | nil => rfl
  | cons b bs ih => exact (ih _).trans (State.posture_post (s.freeBuffer b) i .undelivered)

@[simp] theorem State.posture_removeRing : (s.removeRing i).posture = s.posture := by
  unfold State.removeRing
  split <;> rfl

@[simp] theorem State.posture_joinDismiss : (s.joinDismiss i).posture = s.posture := rfl

@[simp] theorem State.posture_setIndex (a : Byte) (e : Option SlotNo) : (s.setIndex a e).posture = s.posture := rfl

@[simp] theorem State.posture_enterRetired : (s.enterRetired i).posture = s.posture := by
  unfold State.enterRetired
  split <;> simp

@[simp] theorem State.posture_settleRetiring : (s.settleRetiring i).posture = s.posture := by
  unfold State.settleRetiring
  split
  · split <;> simp
  · rfl

@[simp] theorem State.posture_enterRetirement (cause : RetireCause) (dismiss : Bool) :
    (s.enterRetirement i cause dismiss).posture = s.posture := by
  unfold State.enterRetirement
  split
  · rfl
  · simp only [apply_ite State.posture, State.posture_joinDismiss, State.posture_updRecord, State.posture_enterRetired,
      State.posture_freeUndelivered, State.posture_removeAdmit, State.posture_removeRing, State.posture_setRecord, ite_self]

/-! ### Outcomes -/

@[simp] theorem State.posture_freeReserved : (s.freeReserved x).posture = s.posture := by
  unfold State.freeReserved
  split <;> rfl

@[simp] theorem State.posture_freeCarried : (s.freeCarried i x).posture = s.posture := by
  unfold State.freeCarried
  split
  · split
    · simp
    · rfl
  · rfl

@[simp] theorem State.posture_finishMessage (why : Reason) : (s.finishMessage i b why).posture = s.posture := by
  unfold State.finishMessage
  split
  · rfl
  · split <;> simp

@[simp] theorem State.posture_countAttempt : (s.countAttempt i b).posture = s.posture := by
  unfold State.countAttempt
  split
  · rfl
  · simp only [apply_ite State.posture, State.posture_finishMessage, State.posture_setRecord, ite_self]

@[simp] theorem State.posture_judgeAck (v : Reply) : (s.judgeAck i x v).posture = s.posture := by
  unfold State.judgeAck
  split
  · split
    · simp
    · split <;> simp
  · rfl

@[simp] theorem State.posture_deliver (r : Record) (n : Nat) : (s.deliver i r b n).posture = s.posture :=
  State.posture_setPort ((s.setBuffer b _).setRecord i _) r.owner rfl

@[simp] theorem State.posture_applyHold (n : Nat) : (s.applyHold i n).posture = s.posture := by
  unfold State.applyHold
  split
  · rfl
  · simp only [apply_ite State.posture, State.posture_post, State.posture_setRecord, ite_self]

@[simp] theorem State.posture_recover : (s.recover i).posture = s.posture := by
  simp [State.recover]

@[simp] theorem State.posture_countMiss : (s.countMiss i).posture = s.posture := by
  unfold State.countMiss
  split
  · rfl
  · split <;> simp [apply_ite State.posture]

@[simp] theorem State.posture_missed (r : Record) : (s.missed i r x).posture = s.posture := by
  have attempt : (s.attempted i x).posture = s.posture := by
    unfold State.attempted
    split <;> simp
  have steps : s.missed i r x =
      let t := (s.attempted i x).countMiss i
      if t.isLost r i then (t.freeReserved x).releaseTarget.enterRetirement i .lost false
      else (t.freeReserved x).releaseTarget := rfl
  rw [steps]
  simp [apply_ite State.posture, attempt]

theorem State.posture_confirm : (s.confirm i).posture = s.posture :=
  (State.posture_post (((s.updRecord i _).removeAdmit i).appendRing i) i .admitted).trans (s.posture_updRecord i _)

theorem State.posture_admitFailed (r : Record) : (s.admitFailed i r).posture = s.posture := by
  unfold State.admitFailed
  dsimp only
  split
  · rfl
  · simp

@[simp] theorem State.posture_admitOutcome (reply : Option Reply) : (s.admitOutcome i reply).posture = s.posture := by
  unfold State.admitOutcome
  split
  · rfl
  · next r _ =>
    cases r.state
    case admitting =>
      cases reply
      · exact s.posture_admitFailed i r
      · exact s.posture_confirm i
    case retiring => simp
    all_goals rfl

@[simp] theorem State.posture_judgeInbound (ns : BitVec 3) (n : Nat) : (s.judgeInbound i x ns n).posture = s.posture := by
  unfold State.judgeInbound
  split
  · simp
  · split
    · split
      · simp
      · rfl
    · split <;> simp

@[simp] theorem State.posture_applyKind (v : Reply) : (s.applyKind i x v).posture = s.posture := by
  unfold State.applyKind
  split <;> simp

@[simp] theorem State.posture_validReply (r : Record) (v : Reply) : (s.validReply i r x v).posture = s.posture := by
  unfold State.validReply
  simp [apply_ite State.posture]

@[simp] theorem State.posture_retiringOutcome (r : Record) (reply : Option Reply) :
    (s.retiringOutcome i r x reply).posture = s.posture := by
  unfold State.retiringOutcome
  simp [apply_ite State.posture]

@[simp] theorem State.posture_pollDataOutcome (reply : Option Reply) :
    (s.pollDataOutcome i x reply).posture = s.posture := by
  unfold State.pollDataOutcome
  split
  · simp
  · split
    case h_4 => simp
    all_goals
    cases reply <;> simp

@[simp] theorem State.posture_takePayload (payload : List Byte) : (s.takePayload payload).posture = s.posture := by
  unfold State.takePayload
  split <;> rfl

@[simp] theorem State.posture_takeLength (v : Reply) : (s.takeLength v).posture = s.posture := by
  rcases s.takeLength_eq v with e | ⟨y, b, n, -, -, -, e⟩ <;> rw [e]
  rfl

@[simp] theorem State.posture_returnLength (before : State) (v : Reply) :
    (s.returnLength before v).posture = s.posture := by
  rcases s.returnLength_eq before v with e | ⟨y, b, -, -, -, e⟩ <;> rw [e]
  rfl

@[simp] theorem State.posture_dropReception : s.dropReception.posture = s.posture := by
  rcases s.dropReception_eq with e | ⟨x, b, -, -, -, e⟩ <;> rw [e]
  rfl

@[simp] theorem State.posture_abortExchange : s.abortExchange.posture = s.posture := by
  unfold State.abortExchange
  split
  · dsimp only
    split
    · split <;> simp
    · simp
  · rfl

/-! ### Admissions -/

theorem State.posture_of_parts {s t : State} (trunk : t.trunk = s.trunk) (port0 : t.port0 = s.port0)
    (port1 : t.port1 = s.port1) : t.posture = s.posture := by
  unfold State.posture
  rw [trunk, port0, port1]

theorem State.posture_attempt {s t : State} {identity : List Byte} {cls : Class} {owner : Channel}
    (h : s.attempt identity cls owner = some t) : t.posture = s.posture := by
  obtain ⟨-, -, trunk, -, port0, port1⟩ := s.attempt_frame identity cls owner h
  exact State.posture_of_parts trunk port0 port1

@[simp] theorem State.posture_retryDeferred : s.retryDeferred.1.posture = s.posture := by
  obtain ⟨-, -, trunk, -, port0, port1⟩ := State.retryAmong_frame s.adm.candidates s
  exact State.posture_of_parts trunk port0 port1

@[simp] theorem State.posture_addCandidate (identity : List Byte) (d : Disposition) :
    (s.addCandidate identity d).posture = s.posture := by
  unfold State.addCandidate
  split <;> rfl

@[simp] theorem State.posture_attemptOrDefer (identity : List Byte) (cls : Class) (owner : Channel) :
    (s.attemptOrDefer identity cls owner).posture = s.posture := by
  unfold State.attemptOrDefer
  split
  · next h => exact State.posture_attempt h
  · simp

@[simp] theorem State.posture_evaluateJoin (identity : List Byte) : (s.evaluateJoin identity).posture = s.posture := by
  unfold State.evaluateJoin
  split
  · split
    · rfl
    · split
      · next h => exact State.posture_attempt h
      · rfl
  · split
    · split
      · split
        · simp [State.rejoin]
        · rfl
      · rfl
    · unfold State.filterJoin
      split
      · split <;> simp
      · simp

end

end Sys2Proof.Machine
end

section
/-! Operations across which the mark of a drain stands: no channel begins or ends EXECUTING, and a line in an exchange or
its guard stays there. -/

namespace Sys2Proof.Machine

/-! ### The mark of a drain -/

/-- The line is in an exchange or in its guard. -/
def LineState.busy : LineState → Bool
  | .sending | .awaiting | .guard => true
  | .off | .idle | .fault => false

section
variable {s : State}

theorem State.forall_port {p : Port → Prop} : (∀ ch, p (s.port ch)) ↔ p s.port0 ∧ p s.port1 :=
  ⟨fun h => ⟨h .ch0, h .ch1⟩, fun h ch => by cases ch <;> [exact h.1; exact h.2]⟩

theorem State.drainOk_none (h : s.trunk.drain = none) : s.DrainOk ↔ ∀ ch, (s.port ch).state ≠ .executing := by
  unfold State.DrainOk
  rw [h, State.forall_port (p := fun p => p.state ≠ .executing)]
  exact decide_eq_true_iff

theorem State.drainOk_some {d : Drain} (h : s.trunk.drain = some d) : s.DrainOk ↔
    (s.port d.channel).state = .executing ∧ (s.port (otherChannel d.channel)).state ≠ .executing
      ∧ s.trunk.line.busy = true := by
  unfold State.DrainOk
  rw [h]
  dsimp only
  rw [Bool.and_eq_true, decide_eq_true_eq, and_assoc]
  cases s.trunk.line <;> simp [LineState.busy]

end

/-! ### The relation -/

structure State.Steady (s t : State) : Prop where
  drain : t.trunk.drain = s.trunk.drain
  executing : ∀ ch, (t.port ch).state = .executing ↔ (s.port ch).state = .executing
  busy : s.trunk.line.busy = true → t.trunk.line.busy = true

section
variable {s t u : State} {ch : Channel}

theorem State.Steady.refl (s : State) : s.Steady s := ⟨rfl, fun _ => Iff.rfl, id⟩

theorem State.Steady.trans (a : s.Steady t) (b : t.Steady u) : s.Steady u :=
  ⟨b.drain.trans a.drain, fun ch => (b.executing ch).trans (a.executing ch), fun h => b.busy (a.busy h)⟩

theorem State.Steady.ite {p : Prop} [Decidable p] (a : p → s.Steady t) (b : ¬ p → s.Steady u) :
    s.Steady (if p then t else u) := by
  split
  · next h => exact a h
  · next h => exact b h

theorem State.Steady.of_posture (h : t.posture = s.posture) : s.Steady t := by
  unfold State.posture at h
  obtain ⟨drain, line, state0, state1⟩ : t.trunk.drain = s.trunk.drain ∧ t.trunk.line = s.trunk.line
      ∧ t.port0.state = s.port0.state ∧ t.port1.state = s.port1.state := by simpa using h
  refine ⟨drain, fun ch => ?_, fun b => by rw [line]; exact b⟩
  cases ch
  · exact Iff.of_eq (congrArg (· = ChanState.executing) state0)
  · exact Iff.of_eq (congrArg (· = ChanState.executing) state1)

/-- A steady change, and then one that leaves the posture alone. -/
theorem State.Steady.then (a : s.Steady t) (h : u.posture = t.posture) : s.Steady u := a.trans (.of_posture h)

/-- The line enters an exchange or its guard, and nothing else of the posture changes. -/
theorem State.Steady.of_line (line : LineState) (busy : line.busy = true)
    (h : t.posture = (s.updTrunk fun t => { t with line := line }).posture) : s.Steady t := by
  have moved : s.Steady (s.updTrunk fun t => { t with line := line }) :=
    ⟨rfl, fun ch => by cases ch <;> exact Iff.rfl, fun _ => busy⟩
  exact moved.then h

theorem State.Steady.drainOk (h : s.Steady t) (ok : s.DrainOk) : t.DrainOk := by
  cases hd : s.trunk.drain with
  | none =>
    rw [State.drainOk_none hd] at ok
    exact (State.drainOk_none (h.drain.trans hd)).mpr fun ch e => ok ch ((h.executing ch).mp e)
  | some d =>
    obtain ⟨self, other, busy⟩ := (State.drainOk_some hd).mp ok
    exact (State.drainOk_some (h.drain.trans hd)).mpr
      ⟨(h.executing _).mpr self, fun e => other ((h.executing _).mp e), h.busy busy⟩

end

/-! ### The choice of the next exchange -/

section
variable (s : State)

theorem State.steady_toGuard : s.Steady s.toGuard := .of_line .guard rfl rfl

theorem State.steady_openWindow : s.Steady s.openWindow := by
  unfold State.openWindow
  split
  · exact .refl s
  · exact .of_line .awaiting rfl rfl

theorem State.steady_beginPollData (i : SlotNo) (r : Record) : s.Steady (s.beginPollData i r) := by
  have reserved : s.reserve.1.posture = s.posture := by
    unfold State.reserve
    split <;> rfl
  have begun : ∀ (t : State) (x : Exchange) (frame : List Byte), t.Steady (t.beginExchange x frame) := fun t x frame =>
    .of_line .sending rfl rfl
  unfold State.beginPollData
  dsimp only
  split <;> exact (State.Steady.of_posture reserved).trans (begun ..)

theorem State.steady_chooseWith (k : State → State) (hk : ∀ t : State, t.Steady (k t)) : s.Steady (s.chooseWith k) := by
  obtain ⟨-, trunk, -, -, port0, port1⟩ := s.requestMember_frame
  have asked : s.Steady s.requestMember.1 := .of_posture (State.posture_of_parts trunk port0 port1)
  unfold State.chooseWith
  split
  · split
    · exact .of_line .sending rfl rfl
    · exact .refl s
  · split
    · exact .of_line .sending rfl rfl
    · exact .refl s
  · split
    · exact .of_line .sending rfl rfl
    · dsimp only
      split
      · split
        · exact asked.trans (State.steady_beginPollData ..)
        · exact asked
      · exact asked.trans (hk _)
      · exact asked

theorem State.steady_choose : s.Steady s.choose :=
  s.steady_chooseWith _ fun t => t.steady_chooseWith id State.Steady.refl

theorem State.steady_wake : s.Steady s.wake := .ite (fun _ => s.steady_choose) fun _ => .refl s

theorem State.steady_wakeIfInvitePending : s.Steady s.wakeIfInvitePending :=
  .ite (fun _ => s.steady_wake) fun _ => .refl s

/-! ### The ends of exchanges -/

theorem State.steady_outcome (reply : Option Reply) : s.Steady (s.outcome reply) := by
  have counted : (if reply.isSome = true then s.faultClear else s.faultMiss).posture = s.posture := by
    split <;> rfl
  unfold State.outcome
  split
  · next kind h ns ob rs _ =>
    refine State.Steady.trans (.of_posture ?_) (State.steady_toGuard _)
    cases kind <;> simp [counted]
  · exact .refl s

theorem State.steady_missByTimeout : s.Steady s.missByTimeout :=
  (State.Steady.of_posture (s.posture_updCounters _)).trans (State.steady_outcome _ none)

theorem State.steady_replyEnds (bytes : List Byte) (lost : Bool) : s.Steady (s.replyEnds bytes lost) := by
  have taken : s.Steady (s.takePayload (dataPayloadTaken bytes lost)) := .of_posture (s.posture_takePayload _)
  unfold State.replyEnds
  dsimp only
  split
  · exact .refl s
  · split
    · exact ((taken.then (State.posture_takeLength ..)).trans (State.steady_outcome ..)).then
        (State.posture_returnLength ..)
    · exact (taken.then (State.posture_updCounters ..)).trans (State.steady_outcome ..)

theorem State.steady_endInvitation (join : Option (List Byte)) : s.Steady (s.endInvitation join) := by
  unfold State.endInvitation
  split
  · next identity =>
    have heard : s.Steady (s.faultClear.stepLapses (some identity)) := .of_posture rfl
    exact (heard.then (State.posture_evaluateJoin ..)).trans (State.steady_toGuard _)
  · have lapsed : s.Steady (s.stepLapses none) := .of_posture rfl
    exact lapsed.trans (State.steady_toGuard _)

theorem State.steady_joinEnds (bytes : List Byte) (lost : Bool) : s.Steady (s.joinEnds bytes lost) := by
  unfold State.joinEnds
  split
  · split
    · exact s.steady_endInvitation _
    all_goals exact .refl s
  · have counted : ∀ e : FrameError, s.Steady (s.updCounters fun c => c.countJoin e) := fun e => .of_posture rfl
    exact .ite (fun _ => (counted _).trans (State.steady_endInvitation _ none)) fun _ => .of_posture rfl

theorem State.steady_dismissOutcome : s.Steady s.dismissOutcome := by
  unfold State.dismissOutcome
  split
  · refine State.Steady.trans (.of_posture ?_) (State.steady_toGuard _)
    rw [State.posture_settleRetiring, State.posture_releaseTarget, State.posture_updRecord]
    rfl
  · exact .refl s

theorem State.steady_cutShort : s.Steady s.cutShort := by
  unfold State.cutShort
  split
  case h_4 => exact s.steady_toGuard
  case h_5 => exact s.steady_dismissOutcome
  case h_6 => exact .refl s
  all_goals exact s.steady_missByTimeout

theorem State.steady_dropStray : s.Steady s.dropStray := .ite (fun _ => .of_posture rfl) fun _ => .refl s

theorem State.steady_hearBits (bits : List Bool) : s.Steady (s.hearBits bits) := by
  obtain ⟨hunt, n, e⟩ := s.hearBits_eq bits
  rw [e]
  exact .of_posture rfl

theorem State.steady_passStray : s.Steady s.passStray := by
  obtain ⟨hunt, n, e⟩ := s.passStray_eq
  rw [e]
  exact .of_posture rfl

/-! ### The words of the bus -/

theorem State.steady_setPort (ch : Channel) {p : Port}
    (h : p.state = .executing ↔ (s.port ch).state = .executing) : s.Steady (s.setPort ch p) := by
  refine ⟨by rw [State.setPort_trunk], fun c => ?_, fun b => by rw [State.setPort_trunk]; exact b⟩
  rw [State.port_setPort]
  split
  · next e => rw [e]; exact h
  · exact Iff.rfl

theorem State.steady_writeCommand (ch : Channel) (code opts : Byte) : s.Steady (s.writeCommand ch code opts) := by
  unfold State.writeCommand
  dsimp only
  split
  · next h => exact s.steady_setPort ch (by simp [h])
  · next h => exact s.steady_setPort ch (by simp [h])
  · exact s.steady_setPort ch Iff.rfl
  · exact s.steady_setPort ch Iff.rfl

theorem State.steady_issued (ch : Channel) (code opts : Byte) : s.Steady (s.issued ch code opts) :=
  .ite (fun _ => .refl s) fun _ => s.steady_writeCommand ..

theorem State.steady_writeCause (ch : Channel) (v : Word) : s.Steady (s.writeCause ch v) := by
  refine .of_posture ?_
  cases ch <;> rfl

theorem State.steady_readWindow (ch : Channel) : s.Steady (s.readWindow ch) := by
  have read : ∀ v, s.Steady (s.setReadData ch v) := fun v => s.steady_setPort ch Iff.rfl
  exact .ite (fun _ => (read _).trans (State.steady_setPort _ ch Iff.rfl)) fun _ =>
    (read _).trans (State.steady_setPort _ ch Iff.rfl)

theorem State.steady_writeWindow (ch : Channel) (v : Word) : s.Steady (s.writeWindow ch v) := by
  have written : ∀ mem, s.Steady { s with pool := { s.pool with mem := mem } } := fun mem => .of_posture rfl
  exact .ite (fun _ => (written _).trans (State.steady_setPort _ ch Iff.rfl)) fun _ => s.steady_setPort ch Iff.rfl

theorem State.steady_writeArg (ch : Channel) (n : Fin 6) (v : Word) : s.Steady (s.writeArg ch n v) := by
  unfold State.writeArg
  dsimp only
  split
  · exact s.steady_setPort ch Iff.rfl
  · exact s.steady_setPort ch Iff.rfl
  · exact .refl s
  · exact .refl s

theorem State.steady_busWrite (addr : BitVec 5) (v : Word) : s.Steady (s.busWrite addr v) := by
  unfold State.busWrite
  dsimp only
  split
  · exact s.steady_writeCommand ..
  case h_8 => exact s.steady_writeCause ..
  case h_9 => exact s.steady_setPort _ Iff.rfl
  case h_10 => exact s.steady_setPort _ Iff.rfl
  case h_11 => exact s.steady_writeWindow ..
  case h_12 => exact .refl s
  all_goals exact s.steady_writeArg ..

end

end Sys2Proof.Machine
end

section
/-! Host commands as taken: all but two complete their own channel and leave the drain as it stands. -/

namespace Sys2Proof.Machine

variable {s t : State} {ch : Channel}

/-- The command of a channel is complete; the other channel, the drain and a busy line are as before. -/
structure State.Ends (ch : Channel) (s t : State) : Prop where
  drain : t.trunk.drain = s.trunk.drain
  self : (t.port ch).state ≠ .executing
  other : (t.port (otherChannel ch)).state = .executing ↔ (s.port (otherChannel ch)).state = .executing
  busy : s.trunk.line.busy = true → t.trunk.line.busy = true

theorem State.complete_trunk (s : State) (ch : Channel) (code : ResultCode) (ws : List Word) :
    (s.complete ch code ws).trunk = s.trunk := State.setPort_trunk ..

theorem State.complete_self (s : State) (ch : Channel) (code : ResultCode) (ws : List Word) :
    ((s.complete ch code ws).port ch).state = .done := by
  rw [State.complete, State.port_setPort_same]

theorem State.complete_other (s : State) (ch : Channel) (code : ResultCode) (ws : List Word) :
    (s.complete ch code ws).port (otherChannel ch) = s.port (otherChannel ch) := State.port_setPort_other ..

theorem State.Steady.complete (h : s.Steady t) (code : ResultCode) (ws : List Word) :
    s.Ends ch (t.complete ch code ws) where
  drain := by rw [State.complete_trunk]; exact h.drain
  self e := nomatch (State.complete_self t ch code ws).symm.trans e
  other := by rw [State.complete_other]; exact h.executing _
  busy b := by rw [State.complete_trunk]; exact h.busy b

theorem State.ends_complete (s : State) (ch : Channel) (code : ResultCode) (ws : List Word) :
    s.Ends ch (s.complete ch code ws) := (State.Steady.refl s).complete code ws

theorem State.ends_fail (s : State) (ch : Channel) (code : ResultCode) : s.Ends ch (s.fail ch code) :=
  s.ends_complete ch code []

/-- A change that the posture does not see, and the command completed. -/
theorem State.ends_of_posture (h : t.posture = s.posture) (code : ResultCode) (ws : List Word) :
    s.Ends ch (t.complete ch code ws) := (State.Steady.of_posture h).complete code ws

theorem State.Ends.ite {u : State} {p : Prop} [Decidable p] (a : p → s.Ends ch t) (b : ¬ p → s.Ends ch u) :
    s.Ends ch (if p then t else u) := by
  split
  · next h => exact a h
  · next h => exact b h

theorem ends_onChannel0 {k : State} (h : s.Ends ch k) : s.Ends ch (onChannel0 ch s k) := by
  cases ch
  · exact h
  · exact s.ends_fail ..

theorem ends_withRecord {changes argsOk : Bool} {k : SlotNo → Record → State} (h : ∀ i r, s.Ends ch (k i r)) :
    s.Ends ch (withRecord ch s changes argsOk k) := by
  unfold withRecord
  split
  · exact s.ends_fail ..
  · refine .ite (fun _ => ?_) fun _ => s.ends_fail ..
    split
    · exact s.ends_fail ..
    · exact .ite (fun _ => s.ends_fail ..) fun _ => .ite (fun _ => s.ends_fail ..) fun _ => h _ _

/-! ### Registry commands -/

theorem State.posture_createRecord {i : SlotNo} {r : Record} (h : s.createRecord r = some (i, t)) :
    t.posture = s.posture := by
  rcases s.createRecord_cases r with ⟨-, e⟩ | ⟨j, rest, -, e⟩ <;> rw [e] at h <;> cases h
  rfl

theorem State.posture_admitAt {i : SlotNo} {identity : List Byte} {cls : Class} {owner : Channel} {a : Byte}
    (h : s.admitAt identity cls owner a = some (i, t)) : t.posture = s.posture := by
  unfold State.admitAt at h
  split at h <;> cases h
  next hc => exact (State.posture_createRecord hc :)

theorem ends_bodyEnrol (s : State) (ch : Channel) : s.Ends ch (bodyEnrol ch s) := by
  unfold bodyEnrol
  refine ends_onChannel0 ?_
  split
  · refine .ite (fun _ => .ite (fun _ => s.ends_fail ..) fun _ => .ite (fun _ => s.ends_fail ..) fun _ =>
      .ite (fun _ => s.ends_fail ..) fun _ => ?_) fun _ => s.ends_fail ..
    unfold State.enrol
    split
    · exact s.ends_fail ..
    · next i s1 hc =>
      have created : s.Steady (s1.appendRing i) := (State.Steady.of_posture (State.posture_createRecord hc)).then rfl
      refine State.Steady.complete (.ite (fun _ => ?_) fun _ => created) _ _
      refine State.Steady.trans ?_ (State.steady_wakeIfInvitePending _)
      exact created.then rfl
  · exact s.ends_fail ..

theorem ends_bodyRetire (s : State) (ch : Channel) : s.Ends ch (bodyRetire ch s) := by
  refine ends_withRecord fun i r => ?_
  have entered : s.Steady (s.enterRetirement i .host (s.option1 ch)) := .of_posture (s.posture_enterRetirement ..)
  have retired : s.Steady (if s.option1 ch = true then (s.enterRetirement i .host (s.option1 ch)).wake
      else s.enterRetirement i .host (s.option1 ch)) :=
    .ite (fun _ => entered.trans (State.steady_wake _)) fun _ => entered
  cases r.state
  case retiring => exact s.ends_fail ..
  case retired => exact s.ends_fail ..
  all_goals exact retired.complete _ _

theorem ends_bodySuspend (s : State) (ch : Channel) : s.Ends ch (bodySuspend ch s) := by
  refine ends_withRecord fun i r => ?_
  cases r.state
  case active => exact State.ends_of_posture (s.posture_setRecord i _) _ _
  case silent => exact State.ends_of_posture (s.posture_setRecord i _) _ _
  all_goals exact s.ends_fail ..

theorem ends_bodyResume (s : State) (ch : Channel) : s.Ends ch (bodyResume ch s) := by
  refine ends_withRecord fun i r => ?_
  cases r.state
  case suspended => exact State.ends_of_posture (s.posture_setRecord i _) _ _
  all_goals exact s.ends_fail ..

theorem ends_bodySetClass (s : State) (ch : Channel) : s.Ends ch (bodySetClass ch s) := by
  refine ends_withRecord fun i r => ?_
  cases r.state
  case retiring => exact s.ends_fail ..
  case retired => exact s.ends_fail ..
  all_goals exact .ite (fun _ => s.ends_complete ..) fun _ => State.ends_of_posture (s.posture_setRecord i _) _ _

theorem State.posture_transferRecord (s : State) (i : SlotNo) (r : Record) (owner : Channel) :
    (s.transferRecord i r owner).posture = s.posture :=
  (State.posture_joinChangeList ..).trans (s.posture_setPort r.owner rfl)

theorem ends_bodyTransfer (s : State) (ch : Channel) : s.Ends ch (bodyTransfer ch s) := by
  refine ends_onChannel0 (ends_withRecord fun i r => ?_)
  cases r.state
  case retired => exact s.ends_fail ..
  all_goals exact .ite (fun _ => s.ends_complete ..) fun _ => State.ends_of_posture (s.posture_transferRecord ..) _ _

theorem State.posture_stageOut (s : State) (b : BufNo) (item : List Byte) : (s.stageOut b item).posture = s.posture := rfl

theorem ends_bodyReadIdentity (s : State) (ch : Channel) : s.Ends ch (bodyReadIdentity ch s) := by
  refine ends_withRecord fun i r => ?_
  split
  · exact s.ends_fail ..
  · exact .ite (fun _ => State.ends_of_posture (s.posture_stageOut ..) _ _) fun _ => s.ends_fail ..

theorem ends_bodyFindAddress (s : State) (ch : Channel) : s.Ends ch (bodyFindAddress ch s) := by
  unfold bodyFindAddress
  refine .ite (fun _ => ?_) fun _ => s.ends_fail ..
  split
  · exact s.ends_complete ..
  · exact s.ends_fail ..

theorem ends_bodyFindIdentity (s : State) (ch : Channel) : s.Ends ch (bodyFindIdentity ch s) := by
  unfold bodyFindIdentity
  split
  · exact s.ends_fail ..
  · refine .ite (fun _ => .ite (fun _ => ?_) fun _ => s.ends_fail ..) fun _ => s.ends_fail ..
    split
    · exact s.ends_complete ..
    · exact s.ends_fail ..

theorem ends_bodyNextStation (s : State) (ch : Channel) : s.Ends ch (bodyNextStation ch s) := by
  unfold bodyNextStation
  refine .ite (fun _ => ?_) fun _ => s.ends_fail ..
  split
  · exact s.ends_complete ..
  · exact s.ends_fail ..

/-! ### Settings -/

theorem ends_bodySetPolling (s : State) (ch : Channel) : s.Ends ch (bodySetPolling ch s) := by
  refine ends_onChannel0 (.ite (fun _ => s.ends_complete ..) fun _ => .ite (fun _ => ?_) fun _ => s.ends_fail ..)
  refine State.Steady.complete (.ite (fun _ => .refl s) fun _ => ?_) _ _
  exact .of_posture rfl

theorem ends_bodyConfigureLine (s : State) (ch : Channel) : s.Ends ch (bodyConfigureLine ch s) := by
  refine ends_onChannel0 (.ite (fun _ => s.ends_complete ..) fun _ => ?_)
  split
  · exact s.ends_fail ..
  · refine .ite (fun _ => State.ends_of_posture ?_ _ _) fun _ => s.ends_fail ..
    rfl

theorem ends_bodyReadLineStatus (s : State) (ch : Channel) : s.Ends ch (bodyReadLineStatus ch s) := by
  unfold bodyReadLineStatus
  refine .ite (fun _ => s.ends_fail ..) fun _ => .ite (fun _ => s.ends_fail ..) fun _ =>
    State.Steady.complete (.ite (fun _ => ?_) fun _ => .refl s) _ _
  exact .of_posture (s.posture_updCounters _)

theorem State.steady_enterIdle (h : s.trunk.line.busy = false) : s.Steady s.enterIdle := by
  have idle : s.Steady (s.updTrunk fun t => { t with line := .idle }) :=
    ⟨rfl, fun c => by cases c <;> exact Iff.rfl, fun b => absurd b (ne_true_of_eq_false h)⟩
  exact idle.trans (State.steady_choose _)

/-- A stopped line is in no exchange, so START LINE takes none from it (R105). -/
theorem ends_bodyStartLine (s : State) (ch : Channel) : s.Ends ch (bodyStartLine ch s) := by
  refine ends_onChannel0 (.ite (fun stopped => State.Steady.complete ?_ _ _) fun _ => s.ends_fail ..)
  have calm : s.trunk.line.busy = false := by
    revert stopped
    cases s.trunk.line <;> simp [LineState.stopped, LineState.busy]
  refine State.Steady.trans ?_ (State.steady_enterIdle calm)
  exact .of_posture rfl

theorem ends_bodySetHealth (s : State) (ch : Channel) : s.Ends ch (bodySetHealth ch s) := by
  refine ends_onChannel0 (.ite (fun _ => s.ends_complete ..) fun _ => .ite (fun _ => ?_) fun _ => s.ends_fail ..)
  refine State.ends_of_posture ?_ _ _
  rfl

theorem ends_bodyClearHold (s : State) (ch : Channel) : s.Ends ch (bodyClearHold ch s) := by
  refine ends_withRecord fun i r => ?_
  have ended : s.Steady (if r.hold.isSome = true then s.endHold i else s) :=
    .ite (fun _ => .of_posture ((State.posture_post ..).trans (s.posture_updRecord ..))) fun _ => .refl s
  cases r.state
  case active => exact ended.complete _ _
  case silent => exact ended.complete _ _
  case suspended => exact ended.complete _ _
  all_goals exact s.ends_fail ..

/-- The DEFERRED candidates retried, and an admission wakes the Trunk Engine (R146, R83). -/
theorem State.Steady.retried (h : s.Steady t) :
    s.Steady (if t.retryDeferred.2 = 0 then t.retryDeferred.1 else t.retryDeferred.1.wake) := by
  have tried := h.then t.posture_retryDeferred
  exact .ite (fun _ => tried) fun _ => tried.trans (State.steady_wake _)

theorem ends_bodySetAdmission (s : State) (ch : Channel) : s.Ends ch (bodySetAdmission ch s) := by
  refine ends_onChannel0 (.ite (fun _ => s.ends_complete ..) fun _ => .ite (fun _ => ?_) fun _ => s.ends_fail ..)
  refine State.Steady.complete (State.Steady.retried ?_) _ _
  exact .of_posture rfl

theorem ends_bodyWriteFilter (s : State) (ch : Channel) : s.Ends ch (bodyWriteFilter ch s) := by
  refine ends_onChannel0 ?_
  split
  · exact s.ends_fail ..
  · next n f _ =>
    have set : ∀ f, (s.setFilter n f).posture = s.posture := fun f => rfl
    refine .ite (fun _ => State.ends_of_posture (set _) _ _) fun _ => ?_
    split
    · exact s.ends_fail ..
    · exact .ite (fun _ => State.ends_of_posture (set _) _ _) fun _ => s.ends_fail ..

theorem ends_bodyReadFilter (s : State) (ch : Channel) : s.Ends ch (bodyReadFilter ch s) := by
  refine ends_onChannel0 ?_
  split
  · split
    · exact s.ends_fail ..
    · exact .ite (fun _ => s.ends_complete ..) fun _ =>
        .ite (fun _ => State.ends_of_posture (s.posture_stageOut ..) _ _) fun _ => s.ends_fail ..
  · exact s.ends_fail ..

theorem ends_bodyReadCandidate (s : State) (ch : Channel) : s.Ends ch (bodyReadCandidate ch s) := by
  refine ends_onChannel0 (.ite (fun _ => ?_) fun _ => s.ends_fail ..)
  split
  · exact s.ends_fail ..
  · refine .ite (fun _ => ?_) fun _ => s.ends_fail ..
    split
    · exact s.ends_fail ..
    · exact State.ends_of_posture (s.posture_stageOut ..) _ _

theorem ends_bodyApprove (s : State) (ch : Channel) : s.Ends ch (bodyApprove ch s) := by
  refine ends_onChannel0 ?_
  split
  · exact s.ends_fail ..
  · refine .ite (fun _ => ?_) fun _ => s.ends_fail ..
    split
    · exact s.ends_fail ..
    · unfold State.approve
      refine .ite (fun _ => s.ends_fail ..) fun _ => ?_
      split
      · exact s.ends_fail ..
      · split
        · exact s.ends_fail ..
        · next h => exact ((State.Steady.of_posture (State.posture_admitAt h)).trans (State.steady_wake _)).complete _ _

theorem ends_bodyReject (s : State) (ch : Channel) : s.Ends ch (bodyReject ch s) := by
  refine ends_onChannel0 (.ite (fun _ => ?_) fun _ => s.ends_fail ..)
  split
  · exact s.ends_fail ..
  · have removed : ∀ p, s.Steady (s.updAdm fun a => { a with candidates := a.candidates.filter p }) := fun p =>
      .of_posture rfl
    exact ((removed _).trans (State.steady_wakeIfInvitePending _)).complete _ _

/-! ### Buffers and changes -/

theorem ends_bodyAllocate (s : State) (ch : Channel) : s.Ends ch (bodyAllocate ch s) := by
  unfold bodyAllocate
  refine .ite (fun _ => s.ends_fail ..) fun _ => ?_
  split
  · exact s.ends_fail ..
  · refine State.ends_of_posture ?_ _ _
    rfl

theorem ends_bodyRelease (s : State) (ch : Channel) : s.Ends ch (bodyRelease ch s) := by
  unfold bodyRelease
  split
  · exact s.ends_fail ..
  · exact .ite (fun _ => State.ends_of_posture (s.posture_freeBuffer _) _ _) fun _ => s.ends_fail ..

theorem ends_bodySend (s : State) (ch : Channel) : s.Ends ch (bodySend ch s) := by
  refine ends_withRecord fun i r => ?_
  split
  · exact s.ends_fail ..
  · refine .ite (fun _ => s.ends_fail ..) fun _ => .ite (fun _ => s.ends_fail ..) fun _ =>
      .ite (fun _ => s.ends_fail ..) fun _ => State.ends_of_posture ?_ _ _
    rfl

theorem ends_bodyTakeMessage (s : State) (ch : Channel) : s.Ends ch (bodyTakeMessage ch s) := by
  unfold bodyTakeMessage
  split
  · exact s.ends_fail ..
  · next rest _ =>
    dsimp only
    refine State.ends_of_posture ?_ _ _
    exact s.posture_setPort ch rfl

theorem ends_bodySetReserve (s : State) (ch : Channel) : s.Ends ch (bodySetReserve ch s) := by
  refine ends_onChannel0 (.ite (fun _ => s.ends_complete ..) fun _ => .ite (fun _ => ?_) fun _ => s.ends_fail ..)
  refine State.ends_of_posture ?_ _ _
  rfl

theorem ends_bodyTakeChange (s : State) (ch : Channel) : s.Ends ch (bodyTakeChange ch s) := by
  unfold bodyTakeChange
  split
  · exact s.ends_fail ..
  · next i rest _ =>
    have taken : s.Steady (s.setPort ch { s.port ch with changeList := rest }) := s.steady_setPort ch Iff.rfl
    unfold State.takeEntry
    dsimp only
    split
    · exact taken.complete _ _
    · refine .ite (fun _ => State.Steady.complete (State.Steady.retried ?_) _ _) fun _ =>
        (taken.then (State.posture_setRecord ..)).complete _ _
      exact taken.then rfl

end Sys2Proof.Machine
end

section
/-! EXECUTING between events stays the mark of a drain, and every buffer in one place (O58). -/

namespace Sys2Proof.Machine

variable {s t : State} {ch : Channel}

theorem eq_or_eq_otherChannel (c d : Channel) : d = c ∨ d = otherChannel c := by
  cases c <;> cases d <;> decide

theorem forall_channel (c : Channel) {p : Channel → Prop} (self : p c) (other : p (otherChannel c)) : ∀ d, p d := fun d => by
  rcases eq_or_eq_otherChannel c d with rfl | rfl
  · exact self
  · exact other

/-! ### The command taken -/

/-- Where a command is taken on a channel: EXECUTING elsewhere is the mark of a drain (R191). -/
structure State.Serving (ch : Channel) (s : State) : Prop where
  still : s.trunk.drain = none → (s.port (otherChannel ch)).state ≠ .executing
  drains : ∀ d, s.trunk.drain = some d →
    d.channel = otherChannel ch ∧ (s.port (otherChannel ch)).state = .executing ∧ s.trunk.line.busy = true

theorem State.engineTakes_pending {code : Byte} (h : s.engineTakes ch code = true) : (s.port ch).state = .pending := by
  unfold State.engineTakes State.pendingWith at h
  rw [Bool.and_eq_true, decide_eq_true_eq] at h
  exact h.1.1

theorem State.taken_trunk (s : State) (ch : Channel) : (s.taken ch).trunk = s.trunk := State.setPort_trunk ..

theorem State.taken_other (s : State) (ch : Channel) : (s.taken ch).port (otherChannel ch) = s.port (otherChannel ch) := by
  cases ch <;> rfl

/-- The engine takes a PENDING command, which is no drain's. -/
theorem State.DrainOk.serving (ok : s.DrainOk) (pending : (s.port ch).state = .pending) : (s.taken ch).Serving ch where
  still h := by
    rw [State.taken_trunk] at h
    rw [State.taken_other]
    exact (State.drainOk_none h).mp ok _
  drains d h := by
    rw [State.taken_trunk] at h ⊢
    rw [State.taken_other]
    obtain ⟨self, -, busy⟩ := (State.drainOk_some h).mp ok
    rcases eq_or_eq_otherChannel ch d.channel with e | e
    · rw [e, pending] at self
      cases self
    · exact ⟨e, by rw [← e]; exact self, busy⟩

theorem otherChannel_otherChannel (c : Channel) : otherChannel (otherChannel c) = c := by
  cases c <;> rfl

theorem State.Ends.drainOk (h : s.Ends ch t) (serving : s.Serving ch) : t.DrainOk := by
  cases hd : s.trunk.drain with
  | none =>
    exact (State.drainOk_none (h.drain.trans hd)).mpr
      (forall_channel ch h.self fun e => serving.still hd (h.other.mp e))
  | some d =>
    obtain ⟨channel, executing, busy⟩ := serving.drains d hd
    refine (State.drainOk_some (h.drain.trans hd)).mpr ⟨?_, ?_, h.busy busy⟩
    · rw [channel]
      exact h.other.mpr executing
    · rw [channel, otherChannel_otherChannel]
      exact h.self

/-! ### STOP LINE (R106, R107, R109) -/

/-- A drain ended completes its channel's command. -/
theorem State.endDrain_frame (s : State) (ended : Nat) : (s.endDrain ended).trunk.drain = none
    ∧ ∀ c, ((s.endDrain ended).port c).state = .executing →
      (s.port c).state = .executing ∧ ∀ d, s.trunk.drain = some d → d.channel ≠ c := by
  unfold State.endDrain
  cases hd : s.trunk.drain with
  | none => exact ⟨hd, fun c e => ⟨e, fun d h => nomatch h⟩⟩
  | some d =>
    refine ⟨by rw [State.complete_trunk]; rfl, forall_channel d.channel (fun e => ?_) fun e => ?_⟩
    · rw [State.complete_self] at e
      cases e
    · rw [State.complete_other] at e
      refine ⟨(show ((s.updTrunk _).port _).state = _ from e), fun d' h => ?_⟩
      cases h
      cases d.channel <;> decide

/-- A drain ends, and then the command of the other channel completes: no channel is EXECUTING. -/
theorem State.Serving.endDrain_complete (serving : s.Serving ch) (drain : t.trunk.drain = s.trunk.drain)
    (executing : ∀ c, (t.port c).state = .executing → (s.port c).state = .executing) (ended : Nat) (code : ResultCode)
    (ws : List Word) : ((t.endDrain ended).complete ch code ws).DrainOk := by
  obtain ⟨none', ended'⟩ := t.endDrain_frame ended
  refine (State.drainOk_none (by rw [State.complete_trunk]; exact none')).mpr
    (forall_channel ch (fun e => ?_) fun e => ?_)
  · rw [State.complete_self] at e
    cases e
  · rw [State.complete_other] at e
    obtain ⟨before, other⟩ := ended' _ e
    cases hd : s.trunk.drain with
    | none => exact serving.still hd (executing _ before)
    | some d => exact other d (drain.trans hd) (serving.drains d hd).1

/-- The line is OFF, and the command complete, while no drain is in progress. -/
theorem State.Serving.toOff_complete (serving : s.Serving ch) (hd : s.trunk.drain = none) (code : ResultCode)
    (ws : List Word) : (s.toOff.complete ch code ws).DrainOk := by
  refine (State.drainOk_none (by rw [State.complete_trunk]; exact hd)).mpr (forall_channel ch (fun e => ?_) fun e => ?_)
  · rw [State.complete_self] at e
    cases e
  · rw [State.complete_other] at e
    exact serving.still hd e

/-- A line that is in no exchange drains none. -/
theorem State.Serving.drain_none (serving : s.Serving ch) (calm : s.trunk.line.busy = false) : s.trunk.drain = none := by
  cases hd : s.trunk.drain with
  | none => rfl
  | some d => exact absurd (serving.drains d hd).2.2 (ne_true_of_eq_false calm)

theorem State.Serving.stopAbort (serving : s.Serving ch) : (s.stopAbort ch).DrainOk := by
  have aborted : s.Steady s.abortExchange := .of_posture s.posture_abortExchange
  have off : ∀ c, (s.abortExchange.toOff.port c).state = .executing → (s.port c).state = .executing := fun c e =>
    (aborted.executing c).mp e
  have none' : ∀ {line}, s.trunk.line = line → line.busy = false → s.trunk.drain = none := fun e calm =>
    serving.drain_none (e ▸ calm)
  unfold State.stopAbort
  dsimp only
  split
  · exact (s.ends_complete ..).drainOk serving
  · next e => exact serving.toOff_complete (none' e rfl) ..
  · next e => exact serving.toOff_complete (none' e rfl) ..
  · exact serving.endDrain_complete (t := s.abortExchange.toOff) aborted.drain off ..
  · exact serving.endDrain_complete (t := s.abortExchange.toOff) aborted.drain off ..
  · exact serving.endDrain_complete (t := s.toOff) rfl (fun _ => id) ..

/-- A drain begins: its channel stays EXECUTING until the guard has run out. -/
theorem State.Serving.stopDrain (serving : s.Serving ch) (self : (s.port ch).state = .executing)
    (hd : s.trunk.drain = none) : (s.stopDrain ch).DrainOk := by
  have drained : s.trunk.line.busy = true →
      (s.updTrunk fun t => { t with drain := some { channel := ch, takenIn := s.trunk.line } }).DrainOk := fun busy =>
    (State.drainOk_some (s := s.updTrunk fun t => { t with drain := some { channel := ch, takenIn := s.trunk.line } })
      rfl).mpr ⟨self, serving.still hd, busy⟩
  unfold State.stopDrain
  dsimp only
  split
  · exact (s.ends_complete ..).drainOk serving
  · exact serving.toOff_complete hd ..
  · exact serving.toOff_complete hd ..
  · exact serving.toOff_complete hd ..
  · next e => exact drained (by rw [e]; rfl)
  · next e => exact drained (by rw [e]; rfl)

theorem State.Serving.bodyStopLine (serving : s.Serving ch) (self : (s.port ch).state = .executing) :
    (bodyStopLine ch s).DrainOk := by
  have failed : ∀ code, (s.fail ch code).DrainOk := fun code => (s.ends_fail ch code).drainOk serving
  unfold Machine.bodyStopLine
  split
  · exact serving.stopAbort
  · split
    · exact failed _
    · next h => exact serving.stopDrain self (Option.not_isSome_iff_eq_none.mp h)
  · exact failed _
  · exact failed _

/-! ### RESET REGISTRY (R196) -/

theorem State.bodyResetRegistry_drainOk (serving : s.Serving ch) : (bodyResetRegistry ch s).DrainOk := by
  cases ch with
  | ch1 => exact (s.ends_fail .ch1 .notPermitted).drainOk serving
  | ch0 =>
    have discarded : ∀ u : State, u.discardOther.trunk = u.trunk ∧ u.discardOther.port1.state ≠ .executing := fun u => by
      unfold State.discardOther
      split
      · exact ⟨rfl, fun e => nomatch e⟩
      · exact ⟨rfl, fun e => nomatch e⟩
      · next e => exact ⟨rfl, by rw [e]; exact fun e => nomatch e⟩
      · next e => exact ⟨rfl, by rw [e]; exact fun e => nomatch e⟩
    obtain ⟨trunk, other⟩ := discarded s.dropReception.resetBlocks
    have drain : s.dropReception.resetBlocks.discardOther.trunk.drain = none := congrArg Trunk.drain trunk
    refine (State.drainOk_none (s := s.dropReception.resetBlocks.discardOther.complete .ch0 .ok []) drain).mpr ?_
    exact forall_channel .ch0 (fun e => nomatch (State.complete_self ..).symm.trans e) other

/-! ### The rows of the table -/

theorem drainOk_command {code opts : Byte} {body : Channel → State → State}
    (hb : ∀ u : State, u.Serving ch → (u.port ch).state = .executing → (body ch u).DrainOk) (ok : s.DrainOk)
    (h : command code body ch opts s = .next t) : t.DrainOk := by
  have issued := (s.steady_issued ch code opts).drainOk ok
  rcases command_cases h with rfl | ⟨-, rfl⟩ | ⟨-, takes, rfl⟩
  · exact ok
  · exact issued
  · refine hb _ (issued.serving (State.engineTakes_pending takes)) ?_
    cases ch <;> rfl

theorem drainOk_ends {code opts : Byte} {body : Channel → State → State} (hb : ∀ u : State, u.Ends ch (body ch u))
    (ok : s.DrainOk) (h : command code body ch opts s = .next t) : t.DrainOk :=
  drainOk_command (fun u serving _ => (hb u).drainOk serving) ok h

theorem drainOk_unlessReset {f : State → State} (ok : s.DrainOk) (hf : s.Steady (f s)) (h : unlessReset f s = .next t) :
    t.DrainOk := by
  rcases unlessReset_cases h with rfl | ⟨-, rfl⟩
  · exact ok
  · exact hf.drainOk ok

theorem drainOk_badCommand {code opts : Byte} (ok : s.DrainOk) (h : execBadCommand ch opts code s = .next t) :
    t.DrainOk := by
  have issued := (s.steady_issued ch code opts).drainOk ok
  rcases unlessReset_cases h with rfl | ⟨-, rfl⟩
  · exact ok
  · dsimp only
    split
    · next takes =>
      have pending := State.engineTakes_pending (Bool.and_eq_true_iff.mp takes).1
      exact (State.ends_fail _ ch _).drainOk (issued.serving pending)
    · exact issued

theorem drainOk_windowDataRead (ok : s.DrainOk) (h : execWindowDataRead ch s = .next t) : t.DrainOk := by
  unfold execWindowDataRead at h
  split at h <;> cases h
  · have zero : s.Steady (s.setReadData ch 0) := s.steady_setPort ch Iff.rfl
    exact zero.drainOk ok
  · exact (s.steady_readWindow ch).drainOk ok

theorem drainOk_clockLoss {bytes : List Byte} (ok : s.DrainOk) (h : execClockLoss bytes s = .next t) : t.DrainOk := by
  refine drainOk_unlessReset ok (.ite (fun _ => ?_) fun _ => .refl s) h
  split
  · exact s.steady_cutShort
  · exact .ite (fun _ => .ite (fun _ => s.steady_replyEnds ..) fun _ =>
      .ite (fun _ => s.steady_joinEnds ..) fun _ => .refl s) fun _ => .refl s
  · exact s.steady_dropStray
  · exact s.steady_dropStray
  · exact s.steady_dropStray
  · exact .refl s

theorem drainOk_strayFrame (ok : s.DrainOk) (h : execStrayFrame s = .next t) : t.DrainOk := by
  have heard : s.Steady (s.updTrunk fun t => { t with lineIn := t.lineIn.tail }) := .of_posture rfl
  refine drainOk_unlessReset ok ?_ h
  dsimp only
  split
  · exact heard.trans (State.steady_hearBits ..)
  · exact heard.trans (State.steady_hearBits ..)
  · exact heard.trans (State.steady_hearBits ..)
  · exact s.steady_passStray
  · exact s.steady_passStray
  · exact s.steady_passStray
  all_goals exact heard

theorem drainOk_holdExpiry {i : SlotNo} (ok : s.DrainOk) (h : execHoldExpiry i s = .next t) : t.DrainOk := by
  refine drainOk_unlessReset ok ?_ h
  split
  · exact .ite (fun _ => .of_posture ((State.posture_post ..).trans (s.posture_updRecord ..))) fun _ => .refl s
  · exact .refl s

theorem drainOk_idleExpiry (ok : s.DrainOk) (h : execIdleExpiry s = .next t) : t.DrainOk := by
  have ended : s.Steady (s.updPoll fun p => { p with idle := none }) := .of_posture rfl
  exact drainOk_unlessReset ok (.ite (fun _ => ended.trans (State.steady_wake _)) fun _ => .refl s) h

/-- The guard runs out: a drain ends with it (R109). -/
theorem State.DrainOk.guardRunsOut (ok : s.DrainOk) : s.guardRunsOut.DrainOk := by
  unfold State.guardRunsOut
  cases hd : s.trunk.drain with
  | some d =>
    obtain ⟨-, other, -⟩ := (State.drainOk_some hd).mp ok
    obtain ⟨drain, executing⟩ := s.toOff.endDrain_frame endedDrained
    refine (State.drainOk_none drain).mpr (forall_channel d.channel (fun e => ?_) fun e => ?_)
    · exact (executing _ e).2 d hd rfl
    · exact other (executing _ e).1
  | none =>
    have still : ∀ u : State, u.trunk.drain = s.trunk.drain → u.port0 = s.port0 → u.port1 = s.port1 → u.DrainOk :=
      fun u drain port0 port1 => by
        have before := (State.drainOk_none hd).mp ok
        have same : u.port = s.port := funext fun c => by cases c <;> [exact port0; exact port1]
        exact (State.drainOk_none (drain.trans hd)).mpr (same ▸ before)
    dsimp only
    split
    · exact still _ rfl rfl rfl
    · refine (State.steady_choose _).drainOk (still _ ?_ ?_ ?_) <;> rfl

theorem drainOk_guardExpiry (ok : s.DrainOk) (h : execGuardExpiry s = .next t) : t.DrainOk := by
  rcases unlessReset_cases h with rfl | ⟨-, rfl⟩
  · exact ok
  · split
    · exact ok.guardRunsOut
    · exact ok

theorem drainOk_pinReset {level : Bool} (ok : s.DrainOk) (h : execPinReset level s = .next t) : t.DrainOk := by
  cases level
  · cases h
    exact ok
  · obtain ⟨-, -, -, -, -, -, drain⟩ := resetIsSound.2 s t h
    exact drain

theorem drainOk_exec {c : Instr} (ok : s.DrainOk) (h : exec c s = .next t) : t.DrainOk := by
  cases c
  case enrol ch _ => exact drainOk_ends (fun u => ends_bodyEnrol u ch) ok h
  case retire ch _ => exact drainOk_ends (fun u => ends_bodyRetire u ch) ok h
  case suspend ch _ => exact drainOk_ends (fun u => ends_bodySuspend u ch) ok h
  case resume ch _ => exact drainOk_ends (fun u => ends_bodyResume u ch) ok h
  case setClass ch _ => exact drainOk_ends (fun u => ends_bodySetClass u ch) ok h
  case transfer ch _ => exact drainOk_ends (fun u => ends_bodyTransfer u ch) ok h
  case readStation ch _ => exact drainOk_ends (fun u => ends_withRecord fun _ _ => u.ends_complete ch ..) ok h
  case readIdentity ch _ => exact drainOk_ends (fun u => ends_bodyReadIdentity u ch) ok h
  case findAddress ch _ => exact drainOk_ends (fun u => ends_bodyFindAddress u ch) ok h
  case findIdentity ch _ => exact drainOk_ends (fun u => ends_bodyFindIdentity u ch) ok h
  case nextStation ch _ => exact drainOk_ends (fun u => ends_bodyNextStation u ch) ok h
  case setPolling ch _ => exact drainOk_ends (fun u => ends_bodySetPolling u ch) ok h
  case configureLine ch _ => exact drainOk_ends (fun u => ends_bodyConfigureLine u ch) ok h
  case readLineStatus ch _ => exact drainOk_ends (fun u => ends_bodyReadLineStatus u ch) ok h
  case startLine ch _ => exact drainOk_ends (fun u => ends_bodyStartLine u ch) ok h
  case stopLine => exact drainOk_command (fun _ serving self => serving.bodyStopLine self) ok h
  case setHealth ch _ => exact drainOk_ends (fun u => ends_bodySetHealth u ch) ok h
  case clearHold ch _ => exact drainOk_ends (fun u => ends_bodyClearHold u ch) ok h
  case setAdmission ch _ => exact drainOk_ends (fun u => ends_bodySetAdmission u ch) ok h
  case writeFilter ch _ => exact drainOk_ends (fun u => ends_bodyWriteFilter u ch) ok h
  case readFilter ch _ => exact drainOk_ends (fun u => ends_bodyReadFilter u ch) ok h
  case readCandidate ch _ => exact drainOk_ends (fun u => ends_bodyReadCandidate u ch) ok h
  case approve ch _ => exact drainOk_ends (fun u => ends_bodyApprove u ch) ok h
  case reject ch _ => exact drainOk_ends (fun u => ends_bodyReject u ch) ok h
  case allocate ch _ => exact drainOk_ends (fun u => ends_bodyAllocate u ch) ok h
  case release ch _ => exact drainOk_ends (fun u => ends_bodyRelease u ch) ok h
  case send ch _ => exact drainOk_ends (fun u => ends_bodySend u ch) ok h
  case takeMessage ch _ => exact drainOk_ends (fun u => ends_bodyTakeMessage u ch) ok h
  case setReserve ch _ => exact drainOk_ends (fun u => ends_bodySetReserve u ch) ok h
  case takeChange ch _ => exact drainOk_ends (fun u => ends_bodyTakeChange u ch) ok h
  case resetRegistry => exact drainOk_command (fun _ serving _ => State.bodyResetRegistry_drainOk serving) ok h
  case badCommand => exact drainOk_badCommand ok h
  case interruptCauseWrite ch v => exact drainOk_unlessReset (f := fun s => s.writeCause ch v) ok (s.steady_writeCause ch v) h
  case interruptEnableWrite ch v =>
    exact drainOk_unlessReset (f := fun s => s.writeEnable ch v) ok (s.steady_setPort ch Iff.rfl) h
  case windowSelectWrite ch v =>
    exact drainOk_unlessReset (f := fun s => s.writeSelect ch v) ok (s.steady_setPort ch Iff.rfl) h
  case windowDataRead => exact drainOk_windowDataRead ok h
  case windowDataWrite ch v => exact drainOk_unlessReset (f := fun s => s.writeWindow ch v) ok (s.steady_writeWindow ch v) h
  case registerWrite addr v => exact drainOk_unlessReset (f := fun s => s.busWrite addr v) ok (s.steady_busWrite addr v) h
  case pinReset => exact drainOk_pinReset ok h
  case frameSent => exact drainOk_unlessReset ok (.ite (fun _ => s.steady_openWindow) fun _ => .refl s) h
  case dismissSent => exact drainOk_unlessReset ok (.ite (fun _ => s.steady_dismissOutcome) fun _ => .refl s) h
  case replyReceived => exact drainOk_unlessReset ok (.ite (fun _ => s.steady_replyEnds ..) fun _ => .refl s) h
  case replyTimeout => exact drainOk_unlessReset ok (.ite (fun _ => s.steady_missByTimeout) fun _ => .refl s) h
  case joinFrame => exact drainOk_unlessReset ok (.ite (fun _ => s.steady_joinEnds ..) fun _ => .refl s) h
  case joinWindowExpiry =>
    refine drainOk_unlessReset ok (.ite (fun _ => .ite (fun _ => ?_) fun _ => s.steady_endInvitation none) fun _ => .refl s) h
    exact .of_posture rfl
  case clockLoss => exact drainOk_clockLoss ok h
  case guardExpiry => exact drainOk_guardExpiry ok h
  case strayFrame => exact drainOk_strayFrame ok h
  case holdExpiry => exact drainOk_holdExpiry ok h
  case idleExpiry => exact drainOk_idleExpiry ok h
  case replyFirstSpaceBit =>
    refine drainOk_unlessReset ok (.ite (fun _ => .ite (fun _ => ?_) fun _ => .ite (fun _ => ?_) fun _ => .refl s)
      fun _ => .refl s) h
    · exact .of_posture rfl
    · exact .of_posture rfl

theorem State.steady_tick (s : State) : s.Steady s.tick := .ite (fun _ => .refl s) fun _ => .of_posture rfl

theorem State.DrainOk.step (ok : s.DrainOk) (h : step s = .next t) : t.DrainOk := by
  rcases step_cases h with ⟨-, rfl⟩ | ⟨c, rest, -, h⟩
  · exact s.steady_tick.drainOk ok
  · have queued : State.DrainOk { s with pending := rest } := ok
    exact drainOk_exec queued h

/-- Settles O58: the buffers are kept with the registry they serve, the mark of the drain by a case for each row. -/
theorem stepKeepsBuffers : Obligations.StepKeepsBuffers := by
  unfold Obligations.StepKeepsBuffers
  intro s t sound h
  obtain ⟨-, settings, -, -, -, -, drain⟩ := id sound
  obtain ⟨-, -, -, buffers⟩ := (sound.sane.step settings h).parts
  exact ⟨buffers, drain.step h⟩

end Sys2Proof.Machine
end
